-- ==== Sys2Proof/Word.lean ====
section
/-!
DEFINITION. The word types of the block (spec/00_scope.md rules R8 and R9): unsigned bit vectors for what the spec
treats as bits, and plain `Nat` for times in microseconds, which are exact and never wrap (rules R9, R48, R50); and the
request record (spec/30_encoding.md rule R80).
-/

namespace Sys2Proof

/-- A bus byte, a text byte, a request operand (R8). -/
abbrev Byte := BitVec 8

/-- The 16-bit request header: `OP` 15:12, `RSV` 11:8, `IMM8` 7:0 (R80). -/
abbrev Header := BitVec 16

/-- A request as it is carried on a producer port: its header and the text that comes with it (R80; log 10). -/
structure Record where
  header : Header
  text : List Byte
  deriving DecidableEq, Repr, Inhabited

/-- A bit position inside a byte; R103: "A model may type `position` as a 3-bit value". -/
abbrev Pos := BitVec 3

/-- The 32-bit configuration register `PINMAP` (R31). -/
abbrev PinMap := BitVec 32

end Sys2Proof
end

