-- ==== Sys2Proof/Config.lean ====
section
/-!
DEFINITION. What an implementation fixes (spec/00_scope.md rule R6), the steps the agents can take
(spec/43_session_requests.md rule R178), and the one free value: which step comes next.
-/

namespace Sys2Proof

/-- The parameters that reset samples (R30, R230) and the value of `NOW_US` at reset (R50). `PINMAP` is the packed
register, so that its reserved bits can be checked (R31, R231). -/
structure Params where
  pinMap : PinMap
  busChannel : Nat
  busAddr : Byte
  now0 : Nat
  deriving DecidableEq, Repr, Inhabited

/-- One atomic step of one agent: the steps R178 names, with the choice each leaves to its agent, and the two things
the outside world can do besides (issue a request on a port, and reset the block).
- `send p r`: the host appends the record `r` to the request stream it issues on port `p` (R43, R80, R217).
- `admitReq p`: producer `p` presents its next request (ADMIT, R170).
- `closeEffect p`: the CLOSE waiting on `p` takes effect (CLOSE_EFFECT, R176).
- `accept p`: the dispatcher accepts a TimedWrite, `ARB` choosing `p` (ACCEPT, R142, R143).
- `endHi`, `endLo`, `endHold`, `exit`: the dispatcher's other steps (R145 to R148).
- `busDone`: the Bus Writer completes the pending bus write (BUS_DONE, R213).
- `tick n`: the time source advances `NOW_US` by `n` (TICK, R212).
- `reset c`: the block is reset while running, with the parameters `c` (R230, R234). -/
inductive Move where
  | send (p : Nat) (r : Record)
  | admitReq (p : Nat)
  | closeEffect (p : Nat)
  | accept (p : Nat)
  | endHi
  | endLo
  | endHold
  | exit
  | busDone
  | tick (n : Nat)
  | reset (c : Params)
  deriving DecidableEq, Repr, Inhabited

/-- FREE VALUE (log 7). The move taken where State's `agenda` names none: an uninterpreted function of State's
counter `turn`. R178: "the steps of all agents interleave in any order"; R143: "A model must admit every choice". -/
opaque Config.freeMove : Nat → Move

end Sys2Proof
end

