-- ==== Sys2Proof/Machine/PinMap.lean ====
section
/-!
DEFINITION. The fields of `PINMAP` (spec/10_state.md rule R31) and the configuration check (spec/70_reset_and_hazards.md
rule R231).
-/

namespace Sys2Proof.Machine

/-- Bit position of register-select in a bus byte: `PINMAP[2:0]` (R31). -/
def rsPos (pm : PinMap) : Pos := pm.extractLsb' 0 3

/-- Bit position of read/write: `PINMAP[5:3]` (R31). -/
def rwPos (pm : PinMap) : Pos := pm.extractLsb' 3 3

/-- Bit position of enable: `PINMAP[8:6]` (R31). -/
def ePos (pm : PinMap) : Pos := pm.extractLsb' 6 3

/-- Bit position of data line D4: `PINMAP[11:9]` (R31). -/
def d4Pos (pm : PinMap) : Pos := pm.extractLsb' 9 3

/-- Bit position of data line D5: `PINMAP[14:12]` (R31). -/
def d5Pos (pm : PinMap) : Pos := pm.extractLsb' 12 3

/-- Bit position of data line D6: `PINMAP[17:15]` (R31). -/
def d6Pos (pm : PinMap) : Pos := pm.extractLsb' 15 3

/-- Bit position of data line D7: `PINMAP[20:18]` (R31). -/
def d7Pos (pm : PinMap) : Pos := pm.extractLsb' 18 3

/-- Bit position of backlight: `PINMAP[23:21]` (R31). -/
def blPos (pm : PinMap) : Pos := pm.extractLsb' 21 3

/-- The reserved field `PINMAP[31:24]` (R31). -/
def pinMapReserved (pm : PinMap) : Byte := pm.extractLsb' 24 8

/-- `PINMAP` packed from its eight fields, the reserved bits 0 (R31). -/
def packPinMap (rs rw e d4 d5 d6 d7 bl : Pos) : PinMap :=
  0#8 ++ bl ++ d7 ++ d6 ++ d5 ++ d4 ++ e ++ rw ++ rs

/-- The four flag-line positions (R231). -/
def flagPositions (pm : PinMap) : List Pos := [rsPos pm, rwPos pm, ePos pm, blPos pm]

/-- `{RS_POS, RW_POS, E_POS, BL_POS} == {0, 1, 2, 3}` as sets (R231). -/
def flagsOk (pm : PinMap) : Bool :=
  ([0#3, 1#3, 2#3, 3#3].all fun v => (flagPositions pm).contains v) &&
    ((flagPositions pm).all fun v => [0#3, 1#3, 2#3, 3#3].contains v)

/-- Is a `PINMAP` legal: every clause of R231 but the one on `BUS_ADDR`? -/
def pinMapOk (pm : PinMap) : Bool :=
  flagsOk pm && d4Pos pm == 4#3 && d5Pos pm == 5#3 && d6Pos pm == 6#3 && d7Pos pm == 7#3 && pinMapReserved pm == 0#8

/-- `cfg_ok` of R231. `BUS_CHANNEL` is not checked (R231). -/
def cfgOk (pm : PinMap) (busAddr : Byte) : Bool := pinMapOk pm && decide (busAddr ≤ 0x7F#8)

/-- The reference wiring of spec/40_bit_codec.md: RS 0, RW 1, E 2, BL 3, D4..D7 at 4..7. The spec's example only (D6). -/
def referenceWiring : PinMap := packPinMap 0#3 1#3 2#3 4#3 5#3 6#3 7#3 3#3

end Sys2Proof.Machine
end

