-- ==== Sys2Proof/Syntax.lean ====
section
/-!
DEFINITION. The block's instructions: the six requests of spec/opcode_table.json (spec/30_encoding.md rule R85).
-/

namespace Sys2Proof

/-- One constructor per row of spec/opcode_table.json. Operands as R82 and R83 assemble them: an unsigned byte, or a
list of text bytes whose length is the header's `IMM8`. -/
inductive Instr where
  /-- `INIT`, the initialization handshake (R171). -/
  | init
  /-- `SENDCMD v`, a raw command byte (R172). -/
  | sendCmd (v : Byte)
  /-- `SENDDATA v`, a raw data byte (R173). -/
  | sendData (v : Byte)
  /-- `PRINTROW1 text` (R174). -/
  | printRow1 (text : List Byte)
  /-- `PRINTROW2 text` (R175). -/
  | printRow2 (text : List Byte)
  /-- `CLOSE`, close the session (R176). -/
  | close
  deriving DecidableEq, Repr

end Sys2Proof
end

