-- ==== Sys2Proof/Machine/State.lean ====
section
/-!
DEFINITION. The state of the block as plain data: everything spec/10_state.md gives it (rules R30 to R50), the two
traces of spec/20_memory.md rule R78, the host's request streams (R43), and the model's own scheduling fields
(logs 7 and 13). The block has no memory (R60, R63, R77) and no program counter (R43), so State has neither.
-/

namespace Sys2Proof.Machine

/-- The `pair` tag of a TimedWrite (R90): a lone nibble, or the first or second nibble of one logical byte. The code 3
is never produced (R90) and has no constructor (item U16). -/
inductive Pair where
  | none
  | first
  | second
  deriving DecidableEq, Repr, Inhabited

/-- A TimedWrite, "one atomic enable-pulse cycle" (R90): the bus byte without the enable bit, the hold in
microseconds, and the pair tag. -/
structure TimedWrite where
  payload : Byte
  hold : BitVec 16
  pair : Pair
  deriving DecidableEq, Repr, Inhabited

/-- The response codes that are ever produced (R87). -/
inductive Status where
  | ok
  | errIllegal
  | errNotInit
  | errReinit
  | errClosed
  | errCfg
  deriving DecidableEq, Repr, Inhabited

/-- What a producer presented: a legal request, or an illegal header (R88). -/
inductive Request where
  | legal (i : Instr)
  | illegal (h : Header)
  deriving DecidableEq, Repr

/-- `P_STATE[p]` (R39). -/
inductive PState where
  | idle
  | run
  | closeWait
  deriving DecidableEq, Repr, Inhabited

/-- One producer port: its sequencer (R39 to R42), and outside the block the request stream the host issues on it
(R43) and the responses it has received (R78). -/
structure Port where
  /-- `P_STATE[p]` (R39). -/
  state : PState
  /-- `P_OP[p]`, the opcode of the admitted request (R40). -/
  op : BitVec 4
  /-- `P_UNITS[p]`, the TimedWrites of the admitted request (R41). -/
  units : List TimedWrite
  /-- `P_IDX[p]`, the index of the next TimedWrite to hand over (R42; log 14). -/
  idx : Nat
  /-- The MODEL's own: the outstanding request, kept for its `(request, status)` pair of R78 (log 5). -/
  req : Request
  /-- The requests the host has issued on this port and the block has not admitted, oldest first (R43, R80; log 10). -/
  input : List Record
  /-- The response trace of this port, oldest first (R78; log 18). -/
  responses : List (Request × Status)
  deriving DecidableEq, Repr

/-- `SLOT`, the execution slot (R45). -/
structure Slot where
  valid : Bool
  payload : Byte
  hold : BitVec 16
  pair : Pair
  owner : Nat
  deriving DecidableEq, Repr

/-- `D_PHASE` (R46). -/
inductive Phase where
  | idle
  | wrHi
  | wrLo
  | hold
  | exited
  deriving DecidableEq, Repr, Inhabited

/-- The state of the block. -/
structure State where
  /-- `PINMAP` (R31). -/
  pinMap : PinMap
  /-- `BUS_CHANNEL`, opaque and of OPEN width (R32). -/
  busChannel : Nat
  /-- `BUS_ADDR` (R32). -/
  busAddr : Byte
  /-- `CFG_ERR` (R34). -/
  cfgErr : Bool
  /-- `INIT_STARTED` (R35). -/
  initStarted : Bool
  /-- `INIT_DONE` (R36). -/
  initDone : Bool
  /-- `CLOSED` (R37). -/
  closed : Bool
  /-- The producer ports, `NPROD` of them (R6, R39 to R42). -/
  ports : List Port
  /-- `SLOT` (R45). -/
  slot : Slot
  /-- `D_PHASE` (R46). -/
  phase : Phase
  /-- `LOCK`: `none` or a producer index (R47). -/
  lock : Option Nat
  /-- `HOLD_UNTIL`, in microseconds on the `NOW_US` scale (R48). -/
  holdUntil : Nat
  /-- `BUS_PENDING` (R49). -/
  busPending : Bool
  /-- `BUS_DATA` (R49). -/
  busData : Byte
  /-- `NOW_US`, in microseconds (R50). -/
  nowUs : Nat
  /-- The bus trace, oldest first: each byte with the `NOW_US` of its completion (R78). -/
  busTrace : List (Byte × Nat)
  /-- The MODEL's own: the producer whose ADMIT step is being taken (log 13). -/
  cur : Nat
  /-- The MODEL's own: which moves come next (log 7). -/
  agenda : List Move
  /-- The MODEL's own: how many free moves have been taken (log 7). -/
  turn : Nat
  deriving DecidableEq, Repr

/-- Where the model stops because the spec gives no meaning to what would be read. -/
inductive Fault where
  /-- Raised by END_HI and END_LO in a state whose `D_PHASE` says a TimedWrite is in the slot while `SLOT.valid = 0`:
  "no rule reads them while `valid = 0`" (R45, item U7 `refuse`). No state that meets the invariant reaches it.
  Safe: the model stops. -/
  | emptySlotRead
  deriving DecidableEq, Repr

/-- Where `exec` is called on something that is no move of the block. -/
inductive Refusal where
  /-- An instruction that has no meaning yet. Raised by no arm. Safe. -/
  | notModelled (mnemonic : String)
  /-- Raised by `exec` where the port `cur` already has a request outstanding: "A request is presented only while
  `P_STATE[p] = IDLE`" (R179, item U20 `refuse`). `step` never raises it: there the request waits. Safe. -/
  | portBusy
  /-- Raised by `exec` where `cur` is not one of the `NPROD` ports (R6, item U20 `refuse`). `step` never raises it.
  Safe. -/
  | noSuchPort
  deriving DecidableEq, Repr

/-- A port at reset (R39 to R42, R230). `op` and `req` have no value by the spec; the model names 0 (DESIGN CHOICE,
log 5). -/
def Port.reset : Port :=
  { state := .idle, op := 0#4, units := [], idx := 0, req := .illegal 0#16, input := [], responses := [] }

/-- `SLOT` at reset: `valid = 0`, the other fields without a value by the spec; the model names 0 (DESIGN CHOICE,
log 6). -/
def Slot.reset : Slot := { valid := false, payload := 0#8, hold := 0#16, pair := .none, owner := 0 }

/-- The block right after reset with `nprod` producer ports and the parameters `c` (R230): the configuration sampled,
`CFG_ERR` set by the check of R231, and every other element at the reset value its rule gives. -/
def State.resetWith (nprod : Nat) (c : Params) : State :=
  { pinMap := c.pinMap, busChannel := c.busChannel, busAddr := c.busAddr
    cfgErr := !cfgOk c.pinMap c.busAddr
    initStarted := false, initDone := false, closed := false
    ports := List.replicate nprod Port.reset
    slot := Slot.reset, phase := .idle, lock := none, holdUntil := 0
    busPending := false, busData := 0x00#8
    nowUs := c.now0, busTrace := []
    cur := 0, agenda := [], turn := 0 }

/-- The parameter values `State.reset` uses: the spec leaves each OPEN (R6) and the model names the spec's own examples
(DESIGN CHOICE, logs 1, 2 and 4). -/
def Params.reference : Params := { pinMap := referenceWiring, busChannel := 0, busAddr := 0x27#8, now0 := 0 }

/-- The machine right after reset, with two producer ports (DESIGN CHOICE, log 3) and the reference parameters. -/
def State.reset : State := State.resetWith 2 Params.reference

end Sys2Proof.Machine
end

