-- ==== Sys2Proof/Machine/Operands.lean ====
section
/-!
DEFINITION. The Bit Codec and the nibble framing (spec/40_bit_codec.md rules R100 to R112), and the packed layout of a
TimedWrite and of a response code (spec/30_encoding.md rules R87 and R90).
-/

namespace Sys2Proof.Machine

/-- `setBit(value, position)` (R100). -/
def setBit (value : Byte) (position : Pos) : Byte := value ||| (1#8 <<< position.toNat)

/-- `clearBit(value, position)` (R101). -/
def clearBit (value : Byte) (position : Pos) : Byte := value &&& ~~~(1#8 <<< position.toNat)

/-- `hasBit(value, position)` (R102). -/
def hasBit (value : Byte) (position : Pos) : Bool := ((value >>> position.toNat) &&& 1#8) == 1#8

/-- The two kinds of logical byte (R104): a controller instruction or a character payload. -/
inductive FrameKind where
  | cmd
  | data
  deriving DecidableEq, Repr, Inhabited

/-- `nib(kind)`, the frame-flag byte (R104): backlight always on (R33), register-select for data only. -/
def nib (pm : PinMap) (kind : FrameKind) : Byte :=
  let b := setBit 0x00#8 (blPos pm)
  match kind with
  | .cmd => b
  | .data => setBit b (rsPos pm)

/-- `hiByte(nb, v)`, the payload of the high-nibble write (R105). -/
def hiByte (nb v : Byte) : Byte := nb ^^^ ((v >>> 4) <<< 4)

/-- `loByte(nb, v)`, the payload of the low-nibble write (R106). -/
def loByte (nb v : Byte) : Byte := (nb &&& 0x0F#8) ^^^ ((v <<< 4) &&& 0xF0#8)

/-- `MODE_NIBBLE` (R7). -/
def modeNibble : Byte := 0x02#8

/-- `modeByte`, the payload of a mode-switch nibble (R112). -/
def modeByte (pm : PinMap) : Byte := hiByte (nib pm .cmd) (modeNibble <<< 4)

/-- The 2-bit code of a pair tag (R90). -/
def Pair.code : Pair → BitVec 2
  | .none => 0#2
  | .first => 1#2
  | .second => 2#2

/-- The pair tag of a 2-bit code; 3 is never produced and stands for none of them (R90, item U16). -/
def pairOfCode (c : BitVec 2) : Option Pair :=
  match c.toNat with
  | 0 => some .none
  | 1 => some .first
  | 2 => some .second
  | _ => Option.none

/-- The 26-bit layout of a TimedWrite: `payload` 7:0, `hold` 23:8, `pair` 25:24 (R90). -/
def packTimedWrite (tw : TimedWrite) : BitVec 26 := tw.pair.code ++ tw.hold ++ tw.payload

/-- The TimedWrite of a 26-bit word, unless its `pair` field is 3 (R90). -/
def unpackTimedWrite (w : BitVec 26) : Option TimedWrite :=
  match pairOfCode (w.extractLsb' 24 2) with
  | some pair => some { payload := w.extractLsb' 0 8, hold := w.extractLsb' 8 16, pair := pair }
  | Option.none => Option.none

/-- The 3-bit code of a response (R87); 6 and 7 are never produced. -/
def Status.code : Status → BitVec 3
  | .ok => 0#3
  | .errIllegal => 1#3
  | .errNotInit => 2#3
  | .errReinit => 3#3
  | .errClosed => 4#3
  | .errCfg => 5#3

/-- The two bus writes of a TimedWrite: the payload with the enable bit set, then cleared (R150, R142, R145). -/
def busBytes (pm : PinMap) (tw : TimedWrite) : List Byte :=
  [setBit tw.payload (ePos pm), clearBit tw.payload (ePos pm)]

end Sys2Proof.Machine
end

