-- ==== Sys2Proof/Machine/Engine.lean ====
section
/-!
DEFINITION. The Protocol Engine (spec/41_protocol_engine.md): a pure generator of TimedWrite sequences from a request
and the PinMap (rules R121 to R132), with the constants of spec/00_scope.md rules R6 and R7.
-/

namespace Sys2Proof.Machine

/-- `ROW_WIDTH` (R6). -/
def rowWidth : Nat := 17

/-- `HOLD_STD_US` (R6). -/
def holdStdUs : BitVec 16 := 1000#16

/-- `HOLD_INIT_US` (R6). -/
def holdInitUs : BitVec 16 := 5000#16

/-- `MODE_SWITCH_COUNT`, exactly two (R6, R128, conflict C3). -/
def modeSwitchCount : Nat := 2

/-- `FS_4BIT_2LINE` (R7). -/
def fs4Bit2Line : Byte := 0x28#8

/-- `DISPLAY_ON` (R7). -/
def displayOn : Byte := 0x0C#8

/-- `CLEAR` (R7). -/
def clearDisplay : Byte := 0x01#8

/-- `HOME` (R7). -/
def homeDisplay : Byte := 0x02#8

/-- `ROW1_BASE` (R7). -/
def row1Base : Byte := 0x80#8

/-- `ROW2_BASE` (R7, R124: "A reader must not replace 0xA8 with another value"). -/
def row2Base : Byte := 0xA8#8

/-- `PAD_CHAR` (R7). -/
def padChar : Byte := 0x20#8

/-- The two rows of the display; no other row can be encoded (R85, R124). -/
inductive Row where
  | one
  | two
  deriving DecidableEq, Repr, Inhabited

/-- `base(r)` (R124). -/
def rowBase : Row → Byte
  | .one => row1Base
  | .two => row2Base

/-- `BYTE(kind, v)`: one logical byte as a pair, high nibble first (R121). -/
def byteWrites (pm : PinMap) (kind : FrameKind) (v : Byte) : List TimedWrite :=
  [ { payload := hiByte (nib pm kind) v, hold := holdStdUs, pair := .first },
    { payload := loByte (nib pm kind) v, hold := holdStdUs, pair := .second } ]

/-- `MODE`: one mode-switch nibble, a lone TimedWrite (R122). -/
def modeWrites (pm : PinMap) : List TimedWrite := [ { payload := modeByte pm, hold := holdInitUs, pair := .none } ]

/-- `pad(L)`: subtraction of naturals, 0 for `L ≥ ROW_WIDTH`; overlong text is passed through (R125). -/
def padCount (len : Nat) : Nat := rowWidth - len

/-- `ROW(r, text)`: the base-address command, the characters in index order, then the padding (R123). -/
def rowWrites (pm : PinMap) (r : Row) (text : List Byte) : List TimedWrite :=
  byteWrites pm .cmd (rowBase r) ++ text.flatMap (byteWrites pm .data) ++
    (List.replicate (padCount text.length) padChar).flatMap (byteWrites pm .data)

/-- `INIT_SEQ`: the initialization handshake, in its fixed order (R126, R127). -/
def initWrites (pm : PinMap) : List TimedWrite :=
  (List.replicate modeSwitchCount (modeWrites pm)).flatten ++
    byteWrites pm .cmd fs4Bit2Line ++ byteWrites pm .cmd displayOn ++
    byteWrites pm .cmd clearDisplay ++ byteWrites pm .cmd homeDisplay ++
    rowWrites pm .one [] ++ rowWrites pm .two []

/-- `EXPAND(req)`: the TimedWrites of each legal request (R129); it reads the request and the PinMap only (R132). -/
def expand (pm : PinMap) : Instr → List TimedWrite
  | .init => initWrites pm
  | .sendCmd v => byteWrites pm .cmd v
  | .sendData v => byteWrites pm .data v
  | .printRow1 text => rowWrites pm .one text
  | .printRow2 text => rowWrites pm .two text
  | .close => []

/-- Is a list of TimedWrites a concatenation of units (R120): lone nibbles and `FIRST`, `SECOND` pairs? -/
def isUnits : List TimedWrite → Bool
  | [] => true
  | tw :: rest =>
    match tw.pair, rest with
    | .none, rest => isUnits rest
    | .first, tw' :: rest => tw'.pair == .second && isUnits rest
    | .first, [] => false
    | .second, _ => false

/-- The sum of the holds of a list of TimedWrites, in microseconds (R249). -/
def holdSum (tws : List TimedWrite) : Nat := (tws.map fun tw => tw.hold.toNat).sum

end Sys2Proof.Machine
end

