-- ==== Sys2Proof/WellFormed.lean ====
section
/-!
DEFINITION. Which terms of `Instr` are requests: those a 16-bit header can carry (spec/30_encoding.md rules R81, R82).
-/

namespace Sys2Proof

/-- `TEXT_MAX`: "largest length an 8-bit field holds" (R6). -/
abbrev textMax : Nat := 255

/-- A text operand has at most `TEXT_MAX` bytes (R61, R82); every byte value is legal (R83). The other requests have
no illegal operand: every byte `v` is legal (R81) and `INIT` and `CLOSE` carry none. -/
def wellFormed : Instr → Bool
  | .init => true
  | .sendCmd _ => true
  | .sendData _ => true
  | .printRow1 text => text.length ≤ textMax
  | .printRow2 text => text.length ≤ textMax
  | .close => true

end Sys2Proof
end

