-- ==== Sys2Proof/Decode.lean ====
section
/-!
DEFINITION. Decoding and encoding of requests (spec/30_encoding.md rules R80 to R88), total on any bytes, and the
opcode map as the table of R85.
-/

namespace Sys2Proof

/-- Header field `OP`, bits 15:12 (R80). -/
def headerOp (h : Header) : BitVec 4 := h.extractLsb' 12 4

/-- Header field `RSV`, bits 11:8 (R80). -/
def headerRsv (h : Header) : BitVec 4 := h.extractLsb' 8 4

/-- Header field `IMM8`, bits 7:0 (R80). -/
def headerImm (h : Header) : Byte := h.extractLsb' 0 8

/-- How many bytes follow a header: `IMM8` when `OP` is 0x4 or 0x5, none for every other `OP`, reserved ones included.
The length is told "from `OP` alone", so on a byte stream `RSV` and the header's being illegal do not matter (R84; log
16). -/
def textLength (h : Header) : Nat :=
  if headerOp h == 0x4#4 || headerOp h == 0x5#4 then (headerImm h).toNat else 0

/-- The decode function of R88 on one request record, its header and the bytes that come with it: a request, or `none`
for "Illegal" (R86). `RSV` is tested first, and an illegal header reads no operand (R177). -/
def requestOf (h : Header) (text : List Byte) : Option Instr :=
  if headerRsv h ≠ 0#4 then none
  else match (headerOp h).toNat with
    | 1 => if headerImm h = 0#8 then some .init else none
    | 2 => some (.sendCmd (headerImm h))
    | 3 => some (.sendData (headerImm h))
    | 4 => some (.printRow1 text)
    | 5 => some (.printRow2 text)
    | 6 => if headerImm h = 0#8 then some .close else none
    | _ => none

/-- How long the text of a record with header `h` is: `IMM8` bytes "for PRINTROW1 and PRINTROW2 only" (R80), so none for
any other header: "an illegal header carries no text bytes" (R177). -/
def recordTextLength (h : Header) : Nat := if headerRsv h = 0#4 then textLength h else 0

/-- A record "delivered whole" (R80): the text is as long as the header asks for. -/
def Record.whole (r : Record) : Bool := r.text.length == recordTextLength r.header

/-- The decode function of R88 on a record: a request, or `none` for "Illegal". -/
def Record.request (r : Record) : Option Instr := requestOf r.header r.text

/-- What the front of a byte stream that carries requests holds (R80).
- `request i rest`: a whole legal request, and the bytes after it;
- `illegal h rest`: an illegal header `h` (R86), and the bytes after the length its `OP` gives it (R84);
- `incomplete`: less than one request. -/
inductive Decoded where
  | request (i : Instr) (rest : List Byte)
  | illegal (h : Header) (rest : List Byte)
  | incomplete
  deriving DecidableEq, Repr

/-- The front of a byte stream after its header: the header's length says how many of the bytes are the request's (R84),
and R88 what the request is. -/
def decodeHeader (h : Header) (bytes : List Byte) : Decoded :=
  if textLength h ≤ bytes.length then
    match requestOf h (bytes.take (textLength h)) with
    | some i => .request i (bytes.drop (textLength h))
    | none => .illegal h (bytes.drop (textLength h))
  else .incomplete

/-- The header carried as bytes, high byte first (R80, R66). -/
def headerOf (hi lo : Byte) : Header := hi ++ lo

/-- Decode the front of a byte stream (R80, R84, R88). Total: every stream of two bytes or more has a header, and every
whole record is one of the six requests or illegal (R86). -/
def decode : List Byte → Decoded
  | hi :: lo :: bytes => decodeHeader (headerOf hi lo) bytes
  | _ => .incomplete

/-- The opcode of a request (R85). -/
def opcode : Instr → BitVec 4
  | .init => 0x1#4
  | .sendCmd _ => 0x2#4
  | .sendData _ => 0x3#4
  | .printRow1 _ => 0x4#4
  | .printRow2 _ => 0x5#4
  | .close => 0x6#4

/-- The operand byte of a request's header: the byte, the text length, or 0 (R80, R81). -/
def immediate : Instr → Byte
  | .init => 0#8
  | .sendCmd v => v
  | .sendData v => v
  | .printRow1 text => BitVec.ofNat 8 text.length
  | .printRow2 text => BitVec.ofNat 8 text.length
  | .close => 0#8

/-- The text that follows the header (R81, format HT; empty in H0 and HB). -/
def requestText : Instr → List Byte
  | .printRow1 text => text
  | .printRow2 text => text
  | .init => []
  | .sendCmd _ => []
  | .sendData _ => []
  | .close => []

/-- The 16-bit header of a request: `OP`, `RSV = 0`, `IMM8` (R80). -/
def encodeHeader (i : Instr) : Header := opcode i ++ 0#4 ++ immediate i

/-- A header as bytes, high byte first (R80). -/
def headerBytes (h : Header) : List Byte := [h.extractLsb' 8 8, h.extractLsb' 0 8]

/-- The bytes of a request: header high byte, header low byte, then the text in index order (R80). -/
def encode (i : Instr) : List Byte := headerBytes (encodeHeader i) ++ requestText i

/-- The record of a request: its header and its text (R80). -/
def recordOf (i : Instr) : Record := ⟨encodeHeader i, requestText i⟩

/-- A record as bytes: header high byte, header low byte, then the text in index order (R80). -/
def Record.bytes (r : Record) : List Byte := headerBytes r.header ++ r.text

/-- One row of the opcode map: a header belongs to it when `header &&& mask = pattern` (R85). -/
structure OpcodeRow where
  mnemonic : String
  pattern : Header
  mask : Header
  deriving DecidableEq, Repr

/-- The opcode map of R85, the header match patterns as the spec prints them. -/
def opcodeRows : List OpcodeRow :=
  [ ⟨"INIT", 0x1000#16, 0xFFFF#16⟩, ⟨"SENDCMD", 0x2000#16, 0xFF00#16⟩, ⟨"SENDDATA", 0x3000#16, 0xFF00#16⟩,
    ⟨"PRINTROW1", 0x4000#16, 0xFF00#16⟩, ⟨"PRINTROW2", 0x5000#16, 0xFF00#16⟩, ⟨"CLOSE", 0x6000#16, 0xFFFF#16⟩ ]

/-- Does a header match a row of the opcode map? -/
def OpcodeRow.matchesHeader (r : OpcodeRow) (h : Header) : Bool := (h &&& r.mask) == r.pattern

/-- The mnemonic of a request, as spec/opcode_table.json spells it. -/
def mnemonic : Instr → String
  | .init => "INIT"
  | .sendCmd _ => "SENDCMD"
  | .sendData _ => "SENDDATA"
  | .printRow1 _ => "PRINTROW1"
  | .printRow2 _ => "PRINTROW2"
  | .close => "CLOSE"

/-- The pseudo-instruction `PRINTROW r, "text"` (R91): row 1 or row 2; any other `r`, or a text too long to encode, is
an assembly error and no request is encoded. -/
def printRow (r : Nat) (text : List Byte) : Option Instr :=
  if text.length ≤ textMax then
    match r with
    | 1 => some (.printRow1 text)
    | 2 => some (.printRow2 text)
    | _ => none
  else none

/-- The record whose table word is `w`, of which the lowest `nbits` bits are given and every bit above them is 0: bits
15:0 are the header, and text byte `k` is bits `8k+23 : 8k+16`. -/
def tableRecord (nbits w : Nat) : Record :=
  let word := (BitVec.ofNat nbits w).toNat
  let h : Header := BitVec.ofNat 16 word
  ⟨h, (List.range (recordTextLength h)).map fun k => BitVec.ofNat 8 (word >>> (16 + 8 * k))⟩

/-- The instruction the decoder reads from the bytes of a table word (`none` where it refuses). -/
def decodeTableWord (nbits w : Nat) : Option Instr :=
  match decode (tableRecord nbits w).bytes with
  | .request i _ => some i
  | .illegal _ _ => none
  | .incomplete => none

end Sys2Proof
end

