-- ==== Sys2Proof/Machine/Flags.lean ====
section
/-!
DEFINITION. The global status bits (spec/10_state.md rules R34 to R38): the one place that writes each, and the packed
view `STATUS`. The block has no condition codes.
-/

namespace Sys2Proof.Machine

/-- INIT's admission sets `INIT_STARTED` (R35, R170). -/
def State.setInitStarted (s : State) : State := { s with initStarted := true }

/-- `INIT_DONE` after a request with opcode `op` completes: set by INIT, never cleared (R36, R144). -/
def initDoneAfter (done : Bool) (op : BitVec 4) : Bool := done || op == opcode .init

/-- CLOSE taking effect sets `CLOSED` (R37, R176). -/
def State.setClosed (s : State) : State := { s with closed := true }

/-- The bit of a flag, for a packed view. -/
def flagBit (b : Bool) : BitVec 1 := if b then 1#1 else 0#1

/-- `STATUS`: bit 0 `CFG_ERR`, 1 `INIT_STARTED`, 2 `INIT_DONE`, 3 `CLOSED`, 4 `EXITED`, 7:5 zero (R38). A view for the
model; the host has no read path to it. -/
def State.status (s : State) : BitVec 8 :=
  0#3 ++ flagBit (s.phase == .exited) ++ flagBit s.closed ++ flagBit s.initDone ++ flagBit s.initStarted ++
    flagBit s.cfgErr

end Sys2Proof.Machine
end

