-- ==== Sys2Proof/Machine/Ops.lean ====
section
/-!
DEFINITION. The operations the steps share: reading and writing a port, responding, REJECTING a request (the block's
only exception, spec/60_exceptions.md rules R200 to R207), admission (spec/43_session_requests.md rule R170), and
`BusWrite` (spec/60_exceptions.md rule R213). There is no memory, so there is no memory operation.
-/

namespace Sys2Proof.Machine

/-- What a step or a meaning answers. -/
abbrev Result := Host.Outcome State Fault Refusal

/-- Write port `p`. -/
def State.setPort (s : State) (p : Nat) (port : Port) : State := { s with ports := s.ports.set p port }

/-- `respond(p, status)` for the request `r` (R11): one more entry of the port's response trace (R78). -/
def Port.respond (port : Port) (r : Request) (st : Status) : Port :=
  { port with responses := port.responses ++ [(r, st)] }

/-- Back to `IDLE` with no TimedWrites (R144, R176). -/
def Port.clear (port : Port) : Port := { port with state := .idle, units := [], idx := 0 }

/-- The outstanding request ends with the status `st` (R144, R176). -/
def Port.finish (port : Port) (st : Status) : Port := port.clear.respond port.req st

/-- TAKING AN EXCEPTION: `raise Reject(code)` (R11). The request being presented on the current port completes with
`code`; "A rejection at admission writes only the response" (R207). -/
def State.reject (s : State) (port : Port) (r : Request) (code : Status) : State :=
  s.setPort s.cur (port.respond r code)

/-- `start(p, op, units)` of R170 on the current port, the request `r` becoming its outstanding one. -/
def State.start (s : State) (port : Port) (r : Request) (op : BitVec 4) (units : List TimedWrite) : State :=
  s.setPort s.cur { port with op := op, units := units, idx := 0, state := .run, req := r }

/-- ADMIT's common part (R170): a request is presented only on an idle port (R179); `ERR_CFG` comes first, then
`ERR_CLOSED` (R206); what remains depends on the request. -/
def State.admission (s : State) (r : Request) (act : Port → State) : Result :=
  match s.ports[s.cur]? with
  | none => .refused .noSuchPort
  | some port =>
    if port.state ≠ .idle then .refused .portBusy
    else if s.cfgErr then .next (s.reject port r .errCfg)
    else if s.closed then .next (s.reject port r .errClosed)
    else .next (act port)

/-- ADMIT of the four requests that need `INIT_DONE` (R170, R201). -/
def State.admitGated (s : State) (i : Instr) : Result :=
  s.admission (.legal i) fun port =>
    if s.initDone then s.start port (.legal i) (opcode i) (expand s.pinMap i)
    else s.reject port (.legal i) .errNotInit

/-- ADMIT of an illegal header (R170, R177, R205). -/
def State.admitIllegal (s : State) (h : Header) : Result :=
  s.admission (.illegal h) fun port => s.reject port (.illegal h) .errIllegal

/-- `BusWrite(b)` (R213): the dispatcher's steps call it only while no bus write is pending. -/
def State.busWrite (s : State) (b : Byte) : State := { s with busData := b, busPending := true }

/-- BUS_DONE (R213): the pending byte joins the bus trace with the time of its completion. The completion carries no
result: a failed write completes as a good one (R153). -/
def State.busDone (s : State) : State :=
  { s with busTrace := s.busTrace ++ [(s.busData, s.nowUs)], busPending := false }

/-- TICK(n) (R212). -/
def State.tick (s : State) (n : Nat) : State := { s with nowUs := s.nowUs + n }

/-- The host appends a request to the stream it issues on port `p` (R43, R217; log 10). -/
def State.issue (s : State) (p : Nat) (r : Record) : State :=
  match s.ports[p]? with
  | none => s
  | some port => s.setPort p { port with input := port.input ++ [r] }

/-- A port after a reset of the running block: its sequencer at the reset values; what lies outside the block (the
host's stream and the responses it has received) as before (R230, R234; log 11). -/
def Port.resetRunning (port : Port) : Port :=
  { Port.reset with input := port.input, responses := port.responses }

/-- Reset of the running block (R234): every element takes the value R230 gives it, for the same ports, and every
request in progress is abandoned without a response. A pending bus write is not recorded in the trace. `NOW_US` after
it is OPEN but never decreases (R50): any time not before the present one, named by the parameters (log 11). -/
def State.resetRunning (s : State) (c : Params) : State :=
  { State.resetWith s.ports.length c with
    ports := s.ports.map Port.resetRunning
    nowUs := max s.nowUs c.now0
    busTrace := s.busTrace
    cur := s.cur, agenda := s.agenda, turn := s.turn }

end Sys2Proof.Machine
end

