-- ==== Sys2Proof/Machine/Session.lean ====
section
/-!
DEFINITION. The meanings of the six requests (spec/43_session_requests.md rules R170 to R176): each is the ADMIT step of
the current port for that request. What follows admission (ACCEPT and the rest) is the dispatcher's.
-/

namespace Sys2Proof.Machine

/-- `INIT` (R171): `ERR_REINIT` once started (R202); otherwise `INIT_STARTED ← 1` and the handshake starts. -/
def execInit (s : State) : Result :=
  s.admission (.legal .init) fun port =>
    if s.initStarted then s.reject port (.legal .init) .errReinit
    else s.setInitStarted.start port (.legal .init) (opcode .init) (expand s.pinMap .init)

/-- `SENDCMD v` (R172): one command byte. -/
def execSendCmd (v : Byte) (s : State) : Result := s.admitGated (.sendCmd v)

/-- `SENDDATA v` (R173): one data byte. -/
def execSendData (v : Byte) (s : State) : Result := s.admitGated (.sendData v)

/-- `PRINTROW1 text` (R174): a padded print of row 1. The text is latched now (R180). -/
def execPrintRow1 (text : List Byte) (s : State) : Result := s.admitGated (.printRow1 text)

/-- `PRINTROW2 text` (R175): a padded print of row 2. -/
def execPrintRow2 (text : List Byte) (s : State) : Result := s.admitGated (.printRow2 text)

/-- `CLOSE` (R176): the port waits in `CLOSE_WAIT` until CLOSE takes effect. Legal before INIT. -/
def execClose (s : State) : Result :=
  s.admission (.legal .close) fun port =>
    s.setPort s.cur { port with op := opcode .close, state := .closeWait, req := .legal .close }

end Sys2Proof.Machine
end

