-- ==== Sys2Proof/Machine/Dispatch.lean ====
section
/-!
DEFINITION. The dispatch of the six requests to their meanings: on the port `cur`, the ADMIT step of R170.
-/

namespace Sys2Proof.Machine

def exec (i : Instr) (s : State) : Host.Outcome State Fault Refusal :=
  match i with
  | .init => Sys2Proof.Machine.execInit s
  | .sendCmd v => Sys2Proof.Machine.execSendCmd v s
  | .sendData v => Sys2Proof.Machine.execSendData v s
  | .printRow1 text => Sys2Proof.Machine.execPrintRow1 text s
  | .printRow2 text => Sys2Proof.Machine.execPrintRow2 text s
  | .close => Sys2Proof.Machine.execClose s

end Sys2Proof.Machine
end

