-- ==== Sys2Proof/Machine/Dispatcher.lean ====
section
/-!
DEFINITION. The Serializing Dispatcher and its hold-time enforcer (spec/42_dispatcher.md rules R141 to R148), and CLOSE
taking effect (spec/43_session_requests.md rule R176). Each effect is written for a state that meets its guard; the
guards are the `can…` functions.
-/

namespace Sys2Proof.Machine

/-- `eligible(p)` of R141, for the port `port` of producer `p`. -/
def State.eligiblePort (s : State) (p : Nat) (port : Port) : Bool :=
  port.state == .run && decide (port.idx < port.units.length) && (s.lock == none || s.lock == some p) && !s.closed

/-- `eligible(p)` (R141). -/
def State.eligible (s : State) (p : Nat) : Bool :=
  match s.ports[p]? with
  | none => false
  | some port => s.eligiblePort p port

/-- ACCEPT's guard, `p` being the arbiter's choice `ARB(Eset)`: any eligible producer (R142, R143). -/
def State.canAccept (s : State) (p : Nat) : Bool := s.phase == .idle && !s.busPending && s.eligible p

/-- `complete(p)` (R144): the request whose last TimedWrite was accepted ends with `OK`. -/
def State.complete (s : State) (p : Nat) (port : Port) : State :=
  { s with initDone := initDoneAfter s.initDone port.op }.setPort p (port.finish .ok)

/-- `LOCK` after the acceptance of a TimedWrite of producer `p` (R142, R47). -/
def lockAfter (lock : Option Nat) (p : Nat) : Pair → Option Nat
  | .none => lock
  | .first => some p
  | .second => none

/-- ACCEPT's effect on the slot, the index, the lock, the bus and the phase, before `complete` (R142). -/
def State.takeWrite (s : State) (p : Nat) (port : Port) (tw : TimedWrite) : State :=
  { s with
    slot := { valid := true, payload := tw.payload, hold := tw.hold, pair := tw.pair, owner := p }
    lock := lockAfter s.lock p tw.pair
    phase := .wrHi }.setPort p { port with idx := port.idx + 1 } |>.busWrite (setBit tw.payload (ePos s.pinMap))

/-- ACCEPT from producer `p` (R142). -/
def State.accept (s : State) (p : Nat) : State :=
  match s.ports[p]? with
  | none => s
  | some port =>
    match port.units[port.idx]? with
    | none => s
    | some tw =>
      if port.idx + 1 = port.units.length then
        (s.takeWrite p port tw).complete p { port with idx := port.idx + 1 }
      else s.takeWrite p port tw

/-- END_HI's guard (R145). -/
def State.canEndHi (s : State) : Bool := s.phase == .wrHi && !s.busPending

/-- END_HI (R145): the enable-low bus write of the same payload. -/
def State.endHi (s : State) : Result :=
  if s.slot.valid then .next ({ s with phase := .wrLo }.busWrite (clearBit s.slot.payload (ePos s.pinMap)))
  else .fault .emptySlotRead

/-- END_LO's guard (R146). -/
def State.canEndLo (s : State) : Bool := s.phase == .wrLo && !s.busPending

/-- END_LO (R146): the hold starts when the enable-low write has completed (conflict C2). -/
def State.endLo (s : State) : Result :=
  if s.slot.valid then .next { s with holdUntil := s.nowUs + s.slot.hold.toNat, phase := .hold }
  else .fault .emptySlotRead

/-- END_HOLD's guard (R147): enabled from the moment `NOW_US ≥ HOLD_UNTIL`. -/
def State.canEndHold (s : State) : Bool := s.phase == .hold && decide (s.holdUntil ≤ s.nowUs)

/-- END_HOLD (R147). -/
def State.endHold (s : State) : State :=
  { s with slot := { s.slot with valid := false }, phase := if s.closed then .exited else .idle }

/-- EXIT's guard (R148). -/
def State.canExit (s : State) : Bool := s.phase == .idle && s.closed

/-- EXIT (R148). -/
def State.exitLoop (s : State) : State := { s with phase := .exited }

/-- CLOSE_EFFECT's guard (R176). -/
def State.canClose (s : State) (p : Nat) : Bool :=
  match s.ports[p]? with
  | none => false
  | some port => port.state == .closeWait && s.lock == none && !s.closed

/-- What CLOSE taking effect does to another producer's port: a request outstanding ends with `ERR_CLOSED` and its
TimedWrites not yet accepted are discarded (R176, R203). -/
def Port.cutOff (port : Port) : Port :=
  if port.state == .run || port.state == .closeWait then port.finish .errClosed else port

/-- What CLOSE taking effect does to its own port: `P_STATE ← IDLE` and the response `OK` (R176; log 21). -/
def Port.closeDone (port : Port) : Port := { port with state := .idle }.respond port.req .ok

/-- Every port after the CLOSE of port `p` has taken effect; the count runs down to 0 at port `p` (R176). -/
def closePorts : Nat → List Port → List Port
  | _, [] => []
  | 0, port :: rest => port.closeDone :: rest.map Port.cutOff
  | p + 1, port :: rest => port.cutOff :: closePorts p rest

/-- CLOSE_EFFECT(p) (R176). -/
def State.closeEffect (s : State) (p : Nat) : State := { s.setClosed with ports := closePorts p s.ports }

end Sys2Proof.Machine
end

