-- ==== Sys2Proof/Machine/Agents.lean ====
section
/-!
DEFINITION. One atomic step of one agent (spec/43_session_requests.md rule R178): which move comes next, whether its
guard holds, and its effect. A move whose guard does not hold is passed over: its agent waits (R215; log 8).
-/

namespace Sys2Proof.Machine

/-- ADMIT's guard (R170, R179): the port is idle and has a request to present, legal or not, delivered whole (R80). -/
def State.canAdmit (s : State) (p : Nat) : Bool :=
  match s.ports[p]? with
  | none => false
  | some port => port.state == .idle && port.input.head?.any Record.whole

/-- Producer `p` takes its request off its stream, leaving `rest`, and is the current producer. -/
def State.present (s : State) (p : Nat) (port : Port) (rest : List Record) : State :=
  { s with cur := p }.setPort p { port with input := rest }

/-- ADMIT(p, req) (R170): the next request of port `p`'s stream is decoded (R88) and run. -/
def State.admitReq (s : State) (p : Nat) : Result :=
  match s.ports[p]? with
  | none => .next s
  | some port =>
    match port.input with
    | [] => .next s
    | r :: rest =>
      match r.request with
      | some i => exec i (s.present p port rest)
      | none => (s.present p port rest).admitIllegal r.header

/-- The guard of each move. The host, the time source and reset are never held (R217, R212, R234); what the host issues is
a record as R80 has it, "any 16-bit header and text" (R217), delivered whole. -/
def State.enabled (s : State) : Move → Bool
  | .send _ r => r.whole
  | .admitReq p => s.canAdmit p
  | .closeEffect p => s.canClose p
  | .accept p => s.canAccept p
  | .endHi => s.canEndHi
  | .endLo => s.canEndLo
  | .endHold => s.canEndHold
  | .exit => s.canExit
  | .busDone => s.busPending
  | .tick n => decide (1 ≤ n)
  | .reset _ => true

/-- The effect of each move, in a state that meets its guard. -/
def State.perform (s : State) : Move → Result
  | .send p r => .next (s.issue p r)
  | .admitReq p => s.admitReq p
  | .closeEffect p => .next (s.closeEffect p)
  | .accept p => .next (s.accept p)
  | .endHi => s.endHi
  | .endLo => s.endLo
  | .endHold => .next s.endHold
  | .exit => .next s.exitLoop
  | .busDone => .next s.busDone
  | .tick n => .next (s.tick n)
  | .reset c => .next (s.resetRunning c)

/-- A move is taken where its guard holds; elsewhere nothing changes (log 8). -/
def State.tryMove (s : State) (m : Move) : Result := if s.enabled m then s.perform m else .next s

/-- The move that comes next: the agenda's first, or, where the agenda is empty, the free one (log 7). -/
def State.nextMove (s : State) : Move :=
  match s.agenda with
  | m :: _ => m
  | [] => Config.freeMove s.turn

/-- The state with that move used up. -/
def State.advance (s : State) : State :=
  match s.agenda with
  | _ :: rest => { s with agenda := rest }
  | [] => { s with turn := s.turn + 1 }

/-- The first idle port, if there is one, counting ports from `n`. -/
def firstIdle (n : Nat) : List Port → Option Nat
  | [] => none
  | port :: rest => if port.state == .idle then some n else firstIdle (n + 1) rest

/-- Put a request first on the stream of port `p` and make its ADMIT the next move. -/
def State.schedule (s : State) (p : Nat) (port : Port) (r : Record) : State :=
  { s.setPort p { port with input := r :: port.input } with agenda := .admitReq p :: s.agenda }

/-- The state whose next step presents the request `r`: on the first idle port; where every port is busy, on port
0, whose sequencer is emptied first (log 20). -/
def State.placeRequest (s : State) (r : Record) : State :=
  match firstIdle 0 s.ports with
  | some p =>
    match s.ports[p]? with
    | some port => s.schedule p port r
    | none => s
  | none =>
    match s.ports[0]? with
    | some port => s.schedule 0 port.clear r
    | none => s

/-- Load a program (R43, R89): each request is appended to its port's stream, in order. The moves that run it
are the agenda's, or free. -/
def State.loadProgram (s : State) : List (Nat × Instr) → State
  | [] => s
  | (p, i) :: rest => (s.issue p (recordOf i)).loadProgram rest

end Sys2Proof.Machine
end

