-- ==== Sys2Proof/Machine/Step.lean ====
section
/-!
DEFINITION. One step of the machine: the next move is used up and, where its guard holds, taken.
-/

namespace Sys2Proof.Machine

/-- One atomic step of one agent (R178). -/
def step (s : State) : Host.Outcome State Fault Refusal := s.advance.tryMove s.nextMove

/-- `s` with the request of a table word at the front of an idle port's stream and its ADMIT as the next move, so that
`step` presents exactly it. -/
def State.withFetchWord (s : State) (nbits w : Nat) : State := s.placeRequest (tableRecord nbits w)

end Sys2Proof.Machine
end

