-- ==== Sys2Proof/Machine/Assembler.lean ====
section
/-!
DEFINITION. The assembler syntax of spec/30_encoding.md rules R89 and R91, over lists of characters: one line per
request, `[@p] MNEMONIC [operand] [; comment]`. It makes requests; it is no part of the block's step. What R89 leaves
open of the syntax is settled in log 19 (DESIGN CHOICE).
-/

namespace Sys2Proof.Machine

/-- What is left of a line after its leading spaces and tabs. -/
def skipBlanks : List Char → List Char
  | [] => []
  | c :: rest => if c = ' ' ∨ c = '\t' then skipBlanks rest else c :: rest

/-- Nothing but blanks and an optional comment is left (R89). -/
def lineEnds (cs : List Char) : Bool :=
  match skipBlanks cs with
  | [] => true
  | c :: _ => c = ';'

/-- The digits of a number, in the order of their values. -/
def digits : List Char := "0123456789".toList

/-- The ten digits and the six letters that go on them, in the order of their values, in either case. -/
def upperDigits : List Char := digits ++ "ABCDEF".toList
def lowerDigits : List Char := digits ++ "abcdef".toList

/-- A decimal digit's value: its place among the digits. -/
def decDigit (c : Char) : Option Nat := digits.idxOf? c

/-- A hexadecimal digit's value, in either case. -/
def hexDigit (c : Char) : Option Nat := (upperDigits.idxOf? c).or (lowerDigits.idxOf? c)

/-- The byte two hexadecimal digits write. -/
def hexByte (a b : Char) : Option Byte :=
  match hexDigit a, hexDigit b with
  | some x, some y => some (BitVec.ofNat 8 (16 * x + y))
  | _, _ => none

/-- The byte of a character: its ASCII code (R89); a character outside ASCII has none. -/
def asciiByte (c : Char) : Option Byte := if c.toNat < 128 then some (BitVec.ofNat 8 c.toNat) else none

/-- The digits that go on a decimal number, and what follows. -/
def moreDigits (acc : Nat) : List Char → Nat × List Char
  | [] => (acc, [])
  | c :: rest =>
    match decDigit c with
    | some d => moreDigits (10 * acc + d) rest
    | none => (acc, c :: rest)

/-- A decimal number of one digit or more. -/
def parseDecimal : List Char → Option (Nat × List Char)
  | [] => none
  | c :: rest => (decDigit c).map fun d => moreDigits d rest

/-- The byte operand of `SENDCMD` and `SENDDATA`: `0xHH`, decimal, or a character literal (R89). -/
def parseByte : List Char → Option (Byte × List Char)
  | '0' :: 'x' :: a :: b :: rest => (hexByte a b).map fun v => (v, rest)
  | '\'' :: c :: '\'' :: rest => (asciiByte c).map fun v => (v, rest)
  | cs =>
    match parseDecimal cs with
    | some (n, rest) => if n ≤ 255 then some (BitVec.ofNat 8 n, rest) else none
    | none => none

/-- The double quote that opens and closes a text operand. -/
def quoteChar : Char := Char.ofNat 34

/-- The backslash that begins `\xHH`. -/
def backslash : Char := Char.ofNat 92

/-- Where the reading of a text operand stands: plain characters, or inside `\xHH` after its backslash, its `x`, or its
first digit. -/
inductive TextMode where
  | plain
  | slash
  | hex
  | digit (a : Char)
  deriving DecidableEq, Repr

/-- One more byte in front of a text operand. -/
def consByte (v : Option Byte) (text : Option (List Byte × List Char)) : Option (List Byte × List Char) :=
  match v, text with
  | some v, some (bytes, rest) => some (v :: bytes, rest)
  | _, _ => none

/-- A text operand after its opening quote, to its closing quote: each character stands for its ASCII code, and `\xHH`
for the byte `HH` (R89). -/
def parseText : TextMode → List Char → Option (List Byte × List Char)
  | _, [] => none
  | .plain, c :: rest =>
    if c = quoteChar then some ([], rest)
    else if c = backslash then parseText .slash rest
    else consByte (asciiByte c) (parseText .plain rest)
  | .slash, c :: rest => if c = 'x' then parseText .hex rest else none
  | .hex, c :: rest => parseText (.digit c) rest
  | .digit a, c :: rest => consByte (hexByte a c) (parseText .plain rest)

/-- A whole text operand, with its opening quote. -/
def parseString : List Char → Option (List Byte × List Char)
  | [] => none
  | c :: rest => if c = quoteChar then parseText .plain rest else none

/-- What a mnemonic asks for. -/
inductive Keyword where
  | plain (i : Instr)
  | byte (make : Nat)
  | text (row : Nat)
  | anyRow
  deriving DecidableEq, Repr

/-- The mnemonics of R85, the source's call names as aliases (R89), and the pseudo-instruction `PRINTROW` (R91). -/
def keyword (word : List Char) : Option Keyword :=
  if word = ['I', 'N', 'I', 'T'] ∨ word = ['I', 'n', 'i', 't', 'i', 'a', 'l', 'i', 'z', 'e'] then some (.plain .init)
  else if word = ['C', 'L', 'O', 'S', 'E'] ∨ word = ['C', 'l', 'o', 's', 'e'] then some (.plain .close)
  else if word = ['S', 'E', 'N', 'D', 'C', 'M', 'D'] ∨ word = ['S', 'e', 'n', 'd', 'C', 'o', 'm', 'm', 'a', 'n', 'd'] then
    some (.byte 0)
  else if word = ['S', 'E', 'N', 'D', 'D', 'A', 'T', 'A'] ∨ word = ['S', 'e', 'n', 'd', 'D', 'a', 't', 'a'] then
    some (.byte 1)
  else if word = ['P', 'R', 'I', 'N', 'T', 'R', 'O', 'W', '1'] ∨ word = ['P', 'r', 'i', 'n', 't', 'R', 'o', 'w', '1'] then
    some (.text 1)
  else if word = ['P', 'R', 'I', 'N', 'T', 'R', 'O', 'W', '2'] ∨ word = ['P', 'r', 'i', 'n', 't', 'R', 'o', 'w', '2'] then
    some (.text 2)
  else if word = ['P', 'R', 'I', 'N', 'T', 'R', 'O', 'W'] then some .anyRow
  else none

/-- The letters and digits at the front of a line, and what follows. -/
def takeWord : List Char → List Char × List Char
  | [] => ([], [])
  | c :: rest => if c.isAlphanum then (c :: (takeWord rest).1, (takeWord rest).2) else ([], c :: rest)

/-- The request of a mnemonic and its operand, and what is left of the line. -/
def parseOperand (k : Keyword) (cs : List Char) : Option (Instr × List Char) :=
  match k with
  | .plain i => some (i, cs)
  | .byte make => (parseByte (skipBlanks cs)).map fun (v, rest) => (if make = 0 then .sendCmd v else .sendData v, rest)
  | .text row =>
    match parseString (skipBlanks cs) with
    | some (text, rest) => (printRow row text).map fun i => (i, rest)
    | none => none
  | .anyRow =>
    match parseDecimal (skipBlanks cs) with
    | some (row, ',' :: rest) =>
      match parseString (skipBlanks rest) with
      | some (text, rest) => (printRow row text).map fun i => (i, rest)
      | none => none
    | _ => none

/-- `@p` at the front of a line names the port; without it the port is 0 (R89). -/
def parsePort : List Char → Option (Nat × List Char)
  | '@' :: rest => parseDecimal rest
  | cs => some (0, cs)

/-- One line with a request on it: its port and its request. -/
def assembleRequest (cs : List Char) : Option (Nat × Instr) :=
  match parsePort cs with
  | none => none
  | some (p, rest) =>
    match keyword (takeWord (skipBlanks rest)).1 with
    | none => none
    | some k =>
      match parseOperand k (takeWord (skipBlanks rest)).2 with
      | some (i, left) => if lineEnds left then some (p, i) else none
      | none => none

/-- The lines of a source text. -/
def splitLines : List Char → List (List Char)
  | [] => [[]]
  | c :: rest =>
    if c = '\n' then [] :: splitLines rest
    else match splitLines rest with
      | [] => [[c]]
      | line :: lines => (c :: line) :: lines

/-- A program: its requests in order, each with its port; lines with nothing but blanks or a comment are passed over,
and a line that is no request is an assembly error. -/
def assemble : List (List Char) → Option (List (Nat × Instr))
  | [] => some []
  | line :: lines =>
    if lineEnds line then assemble lines
    else match assembleRequest (skipBlanks line), assemble lines with
      | some r, some rest => some (r :: rest)
      | _, _ => none

end Sys2Proof.Machine
end

