-- ==== Sys2Proof/Safety.lean ====
section
/-!
DEFINITION. What claims about the block are stated in: when a run is finished (spec/20_memory.md rule R79) or stuck
(spec/42_dispatcher.md rule R152), the parts of the state a step leaves alone, the invariant of the block, what a good
bus trace is, and the fairness assumptions (spec/42_dispatcher.md rule R143, spec/60_exceptions.md rule R212).
-/

namespace Sys2Proof.Machine

/-- A run is finished (R79): every producer `IDLE` with no further request to issue, no bus write pending, and the
dispatcher `IDLE` (its last hold has then expired, R147) or `EXITED`. Two points are the model's choice (DESIGN CHOICE,
log 22). "No further request to issue" is read as: every request the host has issued so far has been admitted, the port's
stream being empty; requests the host may issue later, a `send` still on the agenda included, do not count. And where
decision D30 ends a run where no step but TICK is enabled, the model takes the conditions R79 lists. -/
def State.finished (s : State) : Bool :=
  (s.ports.all fun port => port.state == .idle && port.input.isEmpty) && !s.busPending &&
    (s.phase == .idle || s.phase == .exited)

/-- The dispatcher waits for a bus write to complete (R152, R215): if it never does, the block is stuck. -/
def State.waitsForBus (s : State) : Bool := (s.phase == .wrHi || s.phase == .wrLo) && s.busPending

/-- The configuration registers and `CFG_ERR` are the same (R30, R34). -/
def State.SameConfig (s t : State) : Prop :=
  t.pinMap = s.pinMap ∧ t.busChannel = s.busChannel ∧ t.busAddr = s.busAddr ∧ t.cfgErr = s.cfgErr

/-- The three session flags are the same (R35 to R37). -/
def State.SameFlags (s t : State) : Prop :=
  t.initStarted = s.initStarted ∧ t.initDone = s.initDone ∧ t.closed = s.closed

/-- The dispatcher's own state is the same (R45 to R48). -/
def State.SameDispatcher (s t : State) : Prop :=
  t.slot = s.slot ∧ t.phase = s.phase ∧ t.lock = s.lock ∧ t.holdUntil = s.holdUntil

/-- The bus interface and the bus trace are the same: no bus write is issued and none completes (R49, R78). -/
def State.SameBus (s t : State) : Prop :=
  t.busPending = s.busPending ∧ t.busData = s.busData ∧ t.busTrace = s.busTrace

/-- The time and the model's scheduling fields are the same. -/
def State.SameEnvironment (s t : State) : Prop :=
  t.nowUs = s.nowUs ∧ t.cur = s.cur ∧ t.agenda = s.agenda ∧ t.turn = s.turn

/-- Every port but `p` is the same, and there are as many ports. -/
def State.SamePortsBut (p : Nat) (s t : State) : Prop :=
  t.ports.length = s.ports.length ∧ ∀ q, q ≠ p → t.ports[q]? = s.ports[q]?

/-- A payload as the Protocol Engine builds it: enable and read/write clear, backlight set (R110, R111), with one of the
two holds it produces (R90). -/
def payloadOk (pm : PinMap) (tw : TimedWrite) : Bool :=
  !hasBit tw.payload (ePos pm) && !hasBit tw.payload (rwPos pm) && hasBit tw.payload (blPos pm) &&
    (tw.hold == holdStdUs || tw.hold == holdInitUs)

/-- The next TimedWrite is the `SECOND` of a pair, and units follow it. -/
def secondNext : List TimedWrite → Bool
  | [] => false
  | tw :: rest => tw.pair == .second && isUnits rest

/-- The sequencer of one producer is in order: with no request running it holds no TimedWrites (R41, R42); a running
request has TimedWrites left, at most 512 in all (R41), each well built, and stands between two units, or, when the
producer holds the lock, in the middle of a pair (R47, R120). -/
def State.portOk (s : State) (p : Nat) (port : Port) : Bool :=
  match port.state with
  | .idle => port.units.isEmpty && port.idx == 0
  | .closeWait => !s.cfgErr && port.units.isEmpty && port.idx == 0
  | .run =>
    !s.cfgErr && s.initStarted && (port.op == opcode .init || s.initDone) &&
      decide (port.idx < port.units.length) && decide (port.units.length ≤ 512) &&
      port.units.all (payloadOk s.pinMap) &&
      (if s.lock = some p then secondNext (port.units.drop port.idx) else isUnits (port.units.drop port.idx))

/-- Every request on a port's stream is a whole record (R80): what the host issues is (R217). -/
def State.StreamsWhole (s : State) : Prop :=
  ∀ (p : Nat) (port : Port), s.ports[p]? = some port → ∀ r ∈ port.input, r.whole = true

/-- `SLOT.valid = 1` exactly in these phases (R46). -/
def Phase.holdsWrite : Phase → Bool
  | .wrHi => true
  | .wrLo => true
  | .hold => true
  | .idle => false
  | .exited => false

/-- THE INVARIANT of the block: it holds at reset and every step keeps it. -/
structure State.Inv (s : State) : Prop where
  /-- There is a producer port (R6: `NPROD` ≥ 1). -/
  hasPort : s.ports ≠ []
  /-- `CFG_ERR` is the result of the check (R34, R231). -/
  cfgErr : s.cfgErr = !cfgOk s.pinMap s.busAddr
  /-- While `CFG_ERR = 1` nothing has started and nothing is on its way (R155). -/
  cfgQuiet : s.cfgErr = true → s.initStarted = false ∧ s.closed = false ∧ s.phase = .idle ∧ s.busPending = false
  /-- INIT completes only after it started (R35, R36). -/
  doneStarted : s.initDone = true → s.initStarted = true
  /-- `SLOT.valid = 1` exactly when `D_PHASE` is `WR_HI`, `WR_LO` or `HOLD` (R46). -/
  slotValid : s.slot.valid = s.phase.holdsWrite
  /-- What is in the slot is well built (R111). -/
  slotOk : s.slot.valid = true → payloadOk s.pinMap ⟨s.slot.payload, s.slot.hold, s.slot.pair⟩ = true
  /-- A bus write is pending only in `WR_HI` and `WR_LO` (R69). -/
  pendingPhase : s.busPending = true → s.phase = .wrHi ∨ s.phase = .wrLo
  /-- The pending byte is the slot's payload, enable set in `WR_HI` and clear in `WR_LO` (R142, R145). -/
  pendingHi : s.busPending = true → s.phase = .wrHi → s.busData = setBit s.slot.payload (ePos s.pinMap)
  pendingLo : s.busPending = true → s.phase = .wrLo → s.busData = clearBit s.slot.payload (ePos s.pinMap)
  /-- The lock's holder is running (R47, R141). -/
  lockRuns : ∀ q, s.lock = some q → ∃ port : Port, s.ports[q]? = some port ∧ port.state = .run
  /-- After CLOSE nothing runs and no pair is open (R37, R176). -/
  closedQuiet : s.closed = true → s.lock = none ∧ ∀ (p : Nat) (port : Port), s.ports[p]? = some port → port.state = .idle
  /-- The consumer loop exits only after CLOSE (R147, R148). -/
  exitedClosed : s.phase = .exited → s.closed = true
  /-- Every sequencer is in order. -/
  portsOk : ∀ (p : Nat) (port : Port), s.ports[p]? = some port → s.portOk p port = true

/-- Every completed pair of bus writes is an enable pulse: a byte with the enable bit set, then the same byte with it
cleared (R65, R111); a last byte without its partner has the enable bit set. -/
def pulsesOk (pm : PinMap) : List (Byte × Nat) → Bool
  | [] => true
  | [hi] => hasBit hi.1 (ePos pm)
  | hi :: lo :: rest => hi.1 == setBit lo.1 (ePos pm) && !hasBit lo.1 (ePos pm) && pulsesOk pm rest

/-- At least the shortest hold between an enable-low completion `prev` and a time `t` (R74, R244). -/
def heldSince (prev : Option Nat) (t : Nat) : Bool :=
  match prev with
  | none => true
  | some u => decide (u + holdStdUs.toNat ≤ t)

/-- Every enable-high write of a bus trace completes at least the shortest hold after the enable-low write before it
(R74), `prev` being the enable-low completion before the trace. -/
def spacedFrom : Option Nat → List (Byte × Nat) → Bool
  | _, [] => true
  | prev, [hi] => heldSince prev hi.2
  | prev, hi :: lo :: rest => heldSince prev hi.2 && spacedFrom (some lo.2) rest

/-- The time of the last completed enable-low write of a bus trace. -/
def lastLow : Option Nat → List (Byte × Nat) → Option Nat
  | prev, [] => prev
  | prev, [_] => prev
  | _, _ :: lo :: rest => lastLow (some lo.2) rest

/-- THE INVARIANT of the bus trace since reset: its bytes form enable pulses, an enable-high byte stands without its
partner exactly while the dispatcher is between the two writes, that byte is the slot's, and every enable-high write
is held off long enough. -/
structure State.TraceInv (s : State) : Prop where
  pulses : pulsesOk s.pinMap s.busTrace = true
  spaced : spacedFrom none s.busTrace = true
  halfPulse : s.busTrace.length % 2 = 1 ↔
    (s.phase = .wrHi ∧ s.busPending = false) ∨ (s.phase = .wrLo ∧ s.busPending = true)
  halfByte : s.busTrace.length % 2 = 1 →
    s.busTrace.getLast?.map Prod.fst = some (setBit s.slot.payload (ePos s.pinMap))
  lowPast : ∀ u, lastLow none s.busTrace = some u → u ≤ s.nowUs
  heldHold : s.phase = .hold → heldSince (lastLow none s.busTrace) s.holdUntil = true
  heldNow : s.phase = .idle ∨ s.phase = .exited ∨ s.phase = .wrHi →
    heldSince (lastLow none s.busTrace) s.nowUs = true

/-- An endless run of the machine under a schedule: `schedule n` is the move of step `n`. Every interleaving of the
agents is the run of some schedule (R178). -/
def IsRun (schedule : Nat → Move) (run : Nat → State) : Prop :=
  ∀ n, step { run n with agenda := [schedule n] } = .next (run (n + 1))

/-- FAIRNESS ASSUMPTION, not a property of `step`: the environment takes TICK infinitely often (R212). -/
def TimeFair (schedule : Nat → Move) : Prop := ∀ n, ∃ m, n ≤ m ∧ ∃ k, 1 ≤ k ∧ schedule m = .tick k

/-- The dispatcher accepts a TimedWrite of producer `p` at step `n`. -/
def acceptsAt (schedule : Nat → Move) (run : Nat → State) (p n : Nat) : Prop :=
  schedule n = .accept p ∧ (run n).canAccept p = true

/-- FAIRNESS ASSUMPTION, not a property of `step`: the arbiter is weakly fair, in the words of R143: "a producer that
stays eligible is eventually chosen". Nothing else is asked of the run (log 12): a run in which the dispatcher never
accepts again while a producer stays eligible is not fair. -/
def ArbiterFair (schedule : Nat → Move) (run : Nat → State) : Prop :=
  ∀ p n, (∀ m, n ≤ m → (run m).eligible p = true) → ∃ m, n ≤ m ∧ acceptsAt schedule run p m

/-- The moves that carry one TimedWrite of producer `p` from acceptance to the end of its hold, the bus and the time
source moving at once. -/
def pulseMoves (p : Nat) (tw : TimedWrite) : List Move :=
  [.accept p, .busDone, .endHi, .busDone, .endLo, .tick tw.hold.toNat, .endHold]

end Sys2Proof.Machine
end

