-- ==== Sys2Proof/Certificates/Slice0/Obligations.lean ====
section
/-!
DEFINITION. The statements for the provers, from the numbered rules of spec/. Statements about all states hold for every
configuration, every number of ports and every schedule, since State holds them as data. Where a statement speaks of
`s.nextMove` it holds for a move of the agenda and for a free move alike (log 7).
-/

open Sys2Proof Sys2Proof.Machine

/-- R80, R82, R88: decoding the bytes of a well-formed request, whatever follows them, gives that request and leaves what
follows; no operand bit is dropped. -/
def Obligations.DecodeInvertsEncode : Prop :=
  ∀ (i : Instr) (rest : List Byte), wellFormed i = true → decode (encode i ++ rest) = .request i rest

/-- R80, R84, R88: whatever the decoder of a byte stream reads as a request is well formed and is exactly the bytes of its
encoding; a whole record decodes to a request exactly when it is that request's own header and text, and the decoder reads
the record's bytes as that same request. Records are the port's form of a request (log 10). -/
def Obligations.DecodedRequestsReencode : Prop :=
  (∀ (bytes rest : List Byte) (i : Instr),
    decode bytes = .request i rest → wellFormed i = true ∧ bytes = encode i ++ rest) ∧
  ∀ (r : Record) (i : Instr), r.whole = true →
    (r.request = some i ↔ wellFormed i = true ∧ r = recordOf i) ∧
    (r.request = some i → ∀ rest, decode (r.bytes ++ rest) = .request i rest)

/-- R85: no header matches two rows of the opcode map, and once the text is there a header decodes to a request exactly
when a row matches it, and then to a request of that row's mnemonic. -/
def Obligations.OpcodeMapSettlesDecoding : Prop :=
  (opcodeRows.Pairwise fun r r' => ∀ h, ¬(r.matchesHeader h = true ∧ r'.matchesHeader h = true)) ∧
  ∀ (h : Header) (bytes : List Byte),
    (∀ i rest, decodeHeader h bytes = .request i rest →
      ∃ r ∈ opcodeRows, r.matchesHeader h = true ∧ r.mnemonic = mnemonic i) ∧
    (textLength h ≤ bytes.length → (∃ r ∈ opcodeRows, r.matchesHeader h = true) →
      ∃ i rest, decodeHeader h bytes = .request i rest)

/-- R84, R86: a header's length comes from its opcode alone: `IMM8` bytes follow it when `OP` is 4 or 5 and none
otherwise, whatever `RSV` is; less is no whole request. A whole one is illegal exactly when the opcode is reserved, or the
`RSV` field is not 0, or it is INIT or CLOSE with an operand; the decoder then answers the header and the bytes after that
length (log 16). So far the decoder of a byte stream. On the port, which carries records (log 10), a whole record is illegal
for the same headers, and it then has no text, whatever its `OP` and `IMM8` (R177). -/
def Obligations.IllegalHeadersDecodeAsIllegal : Prop :=
  ∀ (h : Header) (bytes : List Byte),
    ((headerOp h = 4#4 ∨ headerOp h = 5#4) → textLength h = (headerImm h).toNat) ∧
    (headerOp h ≠ 4#4 → headerOp h ≠ 5#4 → textLength h = 0) ∧
    (decodeHeader h bytes = .incomplete ↔ bytes.length < textLength h) ∧
    (textLength h ≤ bytes.length →
      (decodeHeader h bytes = .illegal h (bytes.drop (textLength h)) ↔
        headerOp h = 0#4 ∨ 7 ≤ (headerOp h).toNat ∨ headerRsv h ≠ 0#4 ∨
          ((headerOp h = 1#4 ∨ headerOp h = 6#4) ∧ headerImm h ≠ 0#8))) ∧
    (∀ (h' : Header) (rest : List Byte), decodeHeader h bytes = .illegal h' rest →
      h' = h ∧ rest = bytes.drop (textLength h)) ∧
    (Record.whole ⟨h, bytes⟩ = true →
      (Record.request ⟨h, bytes⟩ = none ↔
        headerOp h = 0#4 ∨ 7 ≤ (headerOp h).toNat ∨ headerRsv h ≠ 0#4 ∨
          ((headerOp h = 1#4 ∨ headerOp h = 6#4) ∧ headerImm h ≠ 0#8)) ∧
      (Record.request ⟨h, bytes⟩ = none → bytes = []))

/-- R170: when the next move is ADMIT on an idle port whose stream begins with a whole record that decodes to a request, the
step is `exec` of that request, in the state with the move used up, the record taken off the stream and that port current.
That requests wait on a stream of records, and the scheduling fields, are the model's choice (logs 7, 10, 13). -/
def Obligations.StepRunsTheDecodedRequest : Prop :=
  ∀ (s : State) (p : Nat) (port : Port) (i : Instr) (r : Record) (rest : List Record),
    s.nextMove = .admitReq p → s.ports[p]? = some port → port.state = .idle →
    port.input = r :: rest → r.whole = true → r.request = some i →
      step s = exec i (s.advance.present p port rest) ∧
      (s.advance.present p port rest).ports[p]? = some { port with input := rest } ∧
      (s.advance.present p port rest).cur = p

/-- Sanity: words written out from 30_encoding.md R85 and 95_test_vectors.md section 2.6 decode to what they stand for. -/
def Obligations.SpecHeaderWordsDecode : Prop :=
  decode [0x10#8, 0x00#8] = .request .init [] ∧
  decode [0x10#8, 0x01#8] = .illegal 0x1001#16 [] ∧
  decode [0x11#8, 0x00#8] = .illegal 0x1100#16 [] ∧
  decode [0x20#8, 0x28#8] = .request (.sendCmd 0x28#8) [] ∧
  decode [0x30#8, 0x00#8] = .request (.sendData 0x00#8) [] ∧
  decode [0x40#8, 0x05#8, 0x48#8, 0x45#8, 0x4C#8, 0x4C#8, 0x4F#8] =
    .request (.printRow1 [0x48#8, 0x45#8, 0x4C#8, 0x4C#8, 0x4F#8]) [] ∧
  decode [0x50#8, 0x00#8, 0x60#8] = .request (.printRow2 []) [0x60#8] ∧
  decode [0x60#8, 0x00#8] = .request .close [] ∧
  decode [0x60#8, 0x80#8] = .illegal 0x6080#16 [] ∧
  decode [0xFF#8, 0xFF#8] = .illegal 0xFFFF#16 []

/-- R90: a TimedWrite's 26 bits hold it whole, every word whose pair field is not 3 is the word of one TimedWrite, and a
word whose pair field is 3 is none. -/
def Obligations.TimedWriteLayoutRoundTrips : Prop :=
  (∀ tw, unpackTimedWrite (packTimedWrite tw) = some tw) ∧
  (∀ w tw, unpackTimedWrite w = some tw → packTimedWrite tw = w) ∧
  (∀ w, unpackTimedWrite w = none ↔ w.extractLsb' 24 2 = 3#2)

/-- R100, R101, R102: setting or clearing a bit forces that bit and leaves every other; testing a bit reads it. -/
def Obligations.BitCodecOperations : Prop :=
  ∀ (v : Byte) (p q : Pos),
    hasBit v q = v.getLsbD q.toNat ∧
    hasBit (setBit v p) q = (p == q || hasBit v q) ∧
    hasBit (clearBit v p) q = (p != q && hasBit v q)

/-- R107: under a legal PinMap the flag byte leaves bits 7:4 clear, the two payloads are the flag byte with the nibble
or-ed in at bits 7:4, and bits 3:0 are the flags. R112: the mode byte is the command flags with 0x20. -/
def Obligations.NibbleClosedForms : Prop :=
  ∀ (pm : PinMap) (kind : FrameKind) (v : Byte), pinMapOk pm = true →
    (nib pm kind).extractLsb' 4 4 = 0#4 ∧
    hiByte (nib pm kind) v = (nib pm kind ||| (v &&& 0xF0#8)) ∧
    loByte (nib pm kind) v = (nib pm kind ||| ((v &&& 0x0F#8) <<< 4)) ∧
    (hiByte (nib pm kind) v).extractLsb' 4 4 = v.extractLsb' 4 4 ∧
    (loByte (nib pm kind) v).extractLsb' 4 4 = v.extractLsb' 0 4 ∧
    (hiByte (nib pm kind) v).extractLsb' 0 4 = (nib pm kind).extractLsb' 0 4 ∧
    (loByte (nib pm kind) v).extractLsb' 0 4 = (nib pm kind).extractLsb' 0 4 ∧
    modeByte pm = (nib pm .cmd ||| 0x20#8) ∧ (modeByte pm).extractLsb' 4 4 = 2#4

/-- R108: the two payloads of a byte hold the byte. -/
def Obligations.NibblePairRecoversItsByte : Prop :=
  ∀ (pm : PinMap) (kind : FrameKind) (v : Byte), pinMapOk pm = true →
    ((hiByte (nib pm kind) v >>> 4) <<< 4) ||| (loByte (nib pm kind) v >>> 4) = v

/-- R109: register-select is clear in both nibbles of a command byte and set in both nibbles of a data byte. -/
def Obligations.RegisterSelectInBothNibbles : Prop :=
  ∀ (pm : PinMap) (v : Byte), pinMapOk pm = true →
    hasBit (hiByte (nib pm .cmd) v) (rsPos pm) = false ∧ hasBit (loByte (nib pm .cmd) v) (rsPos pm) = false ∧
    hasBit (hiByte (nib pm .data) v) (rsPos pm) = true ∧ hasBit (loByte (nib pm .data) v) (rsPos pm) = true

/-- R110: both payloads of a byte have the backlight bit set and the read/write bit clear. -/
def Obligations.BacklightOnReadWriteClear : Prop :=
  ∀ (pm : PinMap) (kind : FrameKind) (v : Byte), pinMapOk pm = true →
    hasBit (hiByte (nib pm kind) v) (blPos pm) = true ∧ hasBit (loByte (nib pm kind) v) (blPos pm) = true ∧
    hasBit (hiByte (nib pm kind) v) (rwPos pm) = false ∧ hasBit (loByte (nib pm kind) v) (rwPos pm) = false

/-- R111 over whole requests: every TimedWrite of every request has the enable bit clear; with R110 and R90, its
backlight bit is set, its read/write bit clear, and its hold is one of the two. -/
def Obligations.EveryPayloadLeavesEnableClear : Prop :=
  ∀ (pm : PinMap) (i : Instr) (tw : TimedWrite), pinMapOk pm = true → tw ∈ expand pm i →
    hasBit tw.payload (ePos pm) = false ∧ hasBit tw.payload (rwPos pm) = false ∧
    hasBit tw.payload (blPos pm) = true ∧ (tw.hold = 1000#16 ∨ tw.hold = 5000#16)

/-- R113: two legal PinMaps give the same TimedWrites but for bits 3:0 of their payloads. -/
def Obligations.RemappingMovesOnlyFlagBits : Prop :=
  ∀ (pm pm' : PinMap) (i : Instr), pinMapOk pm = true → pinMapOk pm' = true →
    (expand pm i).length = (expand pm' i).length ∧
    ∀ (k : Nat) (tw tw' : TimedWrite), (expand pm i)[k]? = some tw → (expand pm' i)[k]? = some tw' →
      tw.payload.extractLsb' 4 4 = tw'.payload.extractLsb' 4 4 ∧ tw.hold = tw'.hold ∧ tw.pair = tw'.pair

/-- R123, R125, R249: a row print has `2 × (1 + max(L, 17))` TimedWrites, at most 512 for a text that fits the header, each
with a hold of 1000 µs. -/
def Obligations.RowPrintLengthAndHolds : Prop :=
  ∀ (pm : PinMap) (r : Row) (text : List Byte),
    (rowWrites pm r text).length = 2 * (1 + max text.length 17) ∧
    (∀ tw ∈ rowWrites pm r text, tw.hold = 1000#16) ∧
    holdSum (rowWrites pm r text) = 2000 * (1 + max text.length 17) ∧
    (text.length ≤ 255 → (rowWrites pm r text).length ≤ 512)

/-- R123, R124, R65: a row print sends its base command (0x80 or 0xA8) first, then at place `k` the text's byte `k`, or a
space where the text has ended, each high nibble first. -/
def Obligations.RowPrintPositions : Prop :=
  ∀ (pm : PinMap) (r : Row) (text : List Byte),
    (rowWrites pm r text)[0]? = some ⟨hiByte (nib pm .cmd) (if r = .one then 0x80#8 else 0xA8#8), 1000#16, .first⟩ ∧
    (rowWrites pm r text)[1]? = some ⟨loByte (nib pm .cmd) (if r = .one then 0x80#8 else 0xA8#8), 1000#16, .second⟩ ∧
    ∀ k, k < max text.length 17 →
      (rowWrites pm r text)[2 + 2 * k]? =
        some ⟨hiByte (nib pm .data) (text[k]?.getD 0x20#8), 1000#16, .first⟩ ∧
      (rowWrites pm r text)[3 + 2 * k]? =
        some ⟨loByte (nib pm .data) (text[k]?.getD 0x20#8), 1000#16, .second⟩

/-- R126, R127, R128: the handshake is two lone mode nibbles of 5000 µs, the four commands 0x28, 0x0C, 0x01, 0x02 in that
order, and a blank print of each row; 82 TimedWrites whose holds sum to 90 ms. -/
def Obligations.InitSequenceOrder : Prop :=
  ∀ pm : PinMap,
    initWrites pm =
      [⟨modeByte pm, 5000#16, .none⟩, ⟨modeByte pm, 5000#16, .none⟩] ++
      ([0x28#8, 0x0C#8, 0x01#8, 0x02#8].flatMap fun v =>
        [⟨hiByte (nib pm .cmd) v, 1000#16, .first⟩, ⟨loByte (nib pm .cmd) v, 1000#16, .second⟩]) ++
      rowWrites pm .one [] ++ rowWrites pm .two [] ∧
    (initWrites pm).length = 82 ∧ holdSum (initWrites pm) = 90000

/-- R120, R129: every request's TimedWrites are a concatenation of units; only CLOSE has none; a request that can be
encoded has at most 512. -/
def Obligations.ExpansionsAreMadeOfUnits : Prop :=
  ∀ (pm : PinMap) (i : Instr),
    isUnits (expand pm i) = true ∧ (expand pm i = [] ↔ i = .close) ∧
    (wellFormed i = true → (expand pm i).length ≤ 512)

/-- COMPLETION of INIT (R171, R170): on an idle port, with a good configuration, before CLOSE and before any INIT, it is
admitted: `INIT_STARTED` is set, its 82 TimedWrites are latched, and nothing else changes. -/
def Obligations.InitStartsTheHandshake : Prop :=
  ∀ (s : State) (port : Port),
    s.ports[s.cur]? = some port → port.state = .idle → s.cfgErr = false → s.closed = false → s.initStarted = false →
      ∃ t, exec .init s = .next t ∧ t.initStarted = true ∧ t.initDone = s.initDone ∧ t.closed = s.closed ∧
        t.ports[s.cur]? = some { port with
          state := .run, op := 1#4, units := initWrites s.pinMap, idx := 0, req := .legal .init } ∧
        s.SamePortsBut s.cur t ∧ s.SameConfig t ∧ s.SameDispatcher t ∧ s.SameBus t ∧ s.SameEnvironment t

/-- COMPLETION of SENDCMD and SENDDATA (R172, R173, R170): on an idle port, with a good configuration, after INIT is done
and before CLOSE, the byte's pair of TimedWrites is latched, register-select clear for a command and set for data, and
nothing else changes. -/
def Obligations.ByteRequestsStartOnePair : Prop :=
  ∀ (s : State) (port : Port) (v : Byte),
    s.ports[s.cur]? = some port → port.state = .idle → s.cfgErr = false → s.closed = false → s.initDone = true →
      (∃ t, exec (.sendCmd v) s = .next t ∧
        t.ports[s.cur]? = some { port with
          state := .run, op := 2#4, idx := 0, req := .legal (.sendCmd v)
          units := [⟨hiByte (nib s.pinMap .cmd) v, 1000#16, .first⟩, ⟨loByte (nib s.pinMap .cmd) v, 1000#16, .second⟩] } ∧
        s.SamePortsBut s.cur t ∧ s.SameConfig t ∧ s.SameFlags t ∧ s.SameDispatcher t ∧ s.SameBus t ∧
        s.SameEnvironment t) ∧
      (∃ t, exec (.sendData v) s = .next t ∧
        t.ports[s.cur]? = some { port with
          state := .run, op := 3#4, idx := 0, req := .legal (.sendData v)
          units := [⟨hiByte (nib s.pinMap .data) v, 1000#16, .first⟩, ⟨loByte (nib s.pinMap .data) v, 1000#16, .second⟩] } ∧
        s.SamePortsBut s.cur t ∧ s.SameConfig t ∧ s.SameFlags t ∧ s.SameDispatcher t ∧ s.SameBus t ∧
        s.SameEnvironment t)

/-- COMPLETION of PRINTROW1 and PRINTROW2 (R174, R175, R170): under the same conditions the row's TimedWrites are latched,
and nothing else changes; a text of any length the header holds, the empty one included. -/
def Obligations.RowPrintsStartTheirRow : Prop :=
  ∀ (s : State) (port : Port) (text : List Byte),
    s.ports[s.cur]? = some port → port.state = .idle → s.cfgErr = false → s.closed = false → s.initDone = true →
      (∃ t, exec (.printRow1 text) s = .next t ∧
        t.ports[s.cur]? = some { port with
          state := .run, op := 4#4, units := rowWrites s.pinMap .one text, idx := 0, req := .legal (.printRow1 text) } ∧
        s.SamePortsBut s.cur t ∧ s.SameConfig t ∧ s.SameFlags t ∧ s.SameDispatcher t ∧ s.SameBus t ∧
        s.SameEnvironment t) ∧
      (∃ t, exec (.printRow2 text) s = .next t ∧
        t.ports[s.cur]? = some { port with
          state := .run, op := 5#4, units := rowWrites s.pinMap .two text, idx := 0, req := .legal (.printRow2 text) } ∧
        s.SamePortsBut s.cur t ∧ s.SameConfig t ∧ s.SameFlags t ∧ s.SameDispatcher t ∧ s.SameBus t ∧
        s.SameEnvironment t)

/-- COMPLETION of CLOSE (R176, R170): on an idle port, with a good configuration and before CLOSE has taken effect,
before INIT too, the port waits in `CLOSE_WAIT`, and nothing else changes. -/
def Obligations.CloseWaitsForItsEffect : Prop :=
  ∀ (s : State) (port : Port),
    s.ports[s.cur]? = some port → port.state = .idle → s.cfgErr = false → s.closed = false →
      ∃ t, exec .close s = .next t ∧
        t.ports[s.cur]? = some { port with state := .closeWait, op := 6#4, req := .legal .close } ∧
        s.SamePortsBut s.cur t ∧ s.SameConfig t ∧ s.SameFlags t ∧ s.SameDispatcher t ∧ s.SameBus t ∧
        s.SameEnvironment t

/-- R204, R207: while `CFG_ERR = 1` every request is rejected with `ERR_CFG` (code 5), and only the response is written. -/
def Obligations.MisconfigurationRejectsEveryRequest : Prop :=
  ∀ (i : Instr) (s : State) (port : Port),
    s.ports[s.cur]? = some port → port.state = .idle → s.cfgErr = true →
      exec i s = .next (s.setPort s.cur (port.respond (.legal i) .errCfg)) ∧ Status.errCfg.code = 5#3

/-- R203 cause (a), R207: while `CLOSED = 1` every request is rejected with `ERR_CLOSED` (code 4), a second CLOSE included, and only
the response is written. -/
def Obligations.ClosedSessionRejectsEveryRequest : Prop :=
  ∀ (i : Instr) (s : State) (port : Port),
    s.ports[s.cur]? = some port → port.state = .idle → s.cfgErr = false → s.closed = true →
      exec i s = .next (s.setPort s.cur (port.respond (.legal i) .errClosed)) ∧ Status.errClosed.code = 4#3

/-- R201, R207: SENDCMD, SENDDATA and both row prints are rejected with `ERR_NOT_INIT` (code 2) while `INIT_DONE = 0`, INIT running
or not, and only the response is written. -/
def Obligations.RequestsBeforeInitAreRejected : Prop :=
  ∀ (i : Instr) (s : State) (port : Port), i ≠ .init → i ≠ .close →
    s.ports[s.cur]? = some port → port.state = .idle → s.cfgErr = false → s.closed = false → s.initDone = false →
      exec i s = .next (s.setPort s.cur (port.respond (.legal i) .errNotInit)) ∧ Status.errNotInit.code = 2#3

/-- R202, R207: INIT is rejected with `ERR_REINIT` (code 3) while `INIT_STARTED = 1`, and only the response is written. -/
def Obligations.SecondInitIsRejected : Prop :=
  ∀ (s : State) (port : Port),
    s.ports[s.cur]? = some port → port.state = .idle → s.cfgErr = false → s.closed = false → s.initStarted = true →
      exec .init s = .next (s.setPort s.cur (port.respond (.legal .init) .errReinit)) ∧ Status.errReinit.code = 3#3

/-- R177, R205, R206: an illegal header at the front of an idle port's stream, a record without text whatever its `OP` and
`IMM8`, is rejected at once with `ERR_ILLEGAL` (code 1), unless `ERR_CFG` or `ERR_CLOSED` comes first; only that record is
taken off the stream, and nothing but the response is written. -/
def Obligations.IllegalHeaderIsRejected : Prop :=
  ∀ (s : State) (p : Nat) (port : Port) (h : Header) (rest : List Record),
    s.nextMove = .admitReq p → s.ports[p]? = some port → port.state = .idle → port.input = ⟨h, []⟩ :: rest →
    requestOf h [] = none →
      ∃ t, step s = .next t ∧
        t.ports[p]? = some { port with
          input := rest
          responses := port.responses ++
            [(.illegal h, if s.cfgErr then .errCfg else if s.closed then .errClosed else .errIllegal)] } ∧
        s.SamePortsBut p t ∧ s.SameConfig t ∧ s.SameFlags t ∧ s.SameDispatcher t ∧ s.SameBus t ∧
        t.nowUs = s.nowUs ∧ Status.errIllegal.code = 1#3

/-- R206: a request to which several causes apply reports the first in the order CFG, CLOSED, REINIT or NOT_INIT (ERR_ILLEGAL
concerns no legal request; `IllegalHeaderIsRejected` places it); a request to which none applies gets no response at
admission and its port is busy. -/
def Obligations.RejectionPriority : Prop :=
  ∀ (i : Instr) (s : State) (port : Port), s.ports[s.cur]? = some port → port.state = .idle →
    let cause : Option Status :=
      if s.cfgErr = true then some .errCfg
      else if s.closed = true then some .errClosed
      else if i = .init ∧ s.initStarted = true then some .errReinit
      else if i ≠ .init ∧ i ≠ .close ∧ s.initDone = false then some .errNotInit
      else none
    (∀ code, cause = some code → exec i s = .next (s.setPort s.cur (port.respond (.legal i) code))) ∧
    (cause = none → ∃ (t : State) (port' : Port), exec i s = .next t ∧ t.ports[s.cur]? = some port' ∧ port'.state ≠ .idle ∧
      port'.req = .legal i ∧ port'.responses = port.responses)

/-- FRAME of all six requests (R170, R207, R214): where `exec` gives a next state, the configuration, `INIT_DONE`, `CLOSED`,
the dispatcher, the bus with its trace, the time, every other port, and this port's stream are as before; only INIT may
change `INIT_STARTED`, and only to 1; at most one response is added. -/
def Obligations.AdmissionFrame : Prop :=
  ∀ (i : Instr) (s t : State), exec i s = .next t →
    s.SameConfig t ∧ t.initDone = s.initDone ∧ t.closed = s.closed ∧
    (t.initStarted = s.initStarted ∨ (i = .init ∧ t.initStarted = true)) ∧
    s.SameDispatcher t ∧ s.SameBus t ∧ s.SameEnvironment t ∧ s.SamePortsBut s.cur t ∧
    ∃ port port' : Port, s.ports[s.cur]? = some port ∧ t.ports[s.cur]? = some port' ∧ port'.input = port.input ∧
      (port'.responses = port.responses ∨ ∃ code, port'.responses = port.responses ++ [(.legal i, code)])

/-- R179, item U20: `exec` answers no next state exactly on a port that does not exist or has a request outstanding, and
says which; the block has no such move, and `step` makes none. The two refusals are the model's (log 13). -/
def Obligations.ExecStopsOffIdlePorts : Prop :=
  ∀ (i : Instr) (s : State),
    (s.ports[s.cur]? = none → exec i s = .refused .noSuchPort) ∧
    (∀ port : Port, s.ports[s.cur]? = some port → port.state ≠ .idle → exec i s = .refused .portBusy) ∧
    (∀ port : Port, s.ports[s.cur]? = some port → port.state = .idle → ∃ t, exec i s = .next t)

/-- R142, R144: ACCEPT from an eligible producer puts its next TimedWrite into the slot, advances its index, takes or
releases the lock, issues the enable-high bus write, and completes the request with `OK` when that was its last. -/
def Obligations.AcceptTakesOneTimedWrite : Prop :=
  ∀ (s : State) (p : Nat) (port : Port) (tw : TimedWrite),
    s.nextMove = .accept p → s.ports[p]? = some port → s.phase = .idle → s.busPending = false →
    port.state = .run → port.units[port.idx]? = some tw → (s.lock = none ∨ s.lock = some p) → s.closed = false →
      ∃ t, step s = .next t ∧
        t.slot = { valid := true, payload := tw.payload, hold := tw.hold, pair := tw.pair, owner := p } ∧
        t.lock = (if tw.pair = .first then some p else if tw.pair = .second then none else s.lock) ∧
        t.busData = setBit tw.payload (ePos s.pinMap) ∧ t.busPending = true ∧ t.phase = .wrHi ∧
        (if port.idx + 1 = port.units.length then
          t.ports[p]? = some { port with
            state := .idle, units := [], idx := 0, responses := port.responses ++ [(port.req, .ok)] } ∧
          t.initDone = (s.initDone || port.op == 1#4)
        else t.ports[p]? = some { port with idx := port.idx + 1 } ∧ t.initDone = s.initDone) ∧
        t.initStarted = s.initStarted ∧ t.closed = s.closed ∧ t.holdUntil = s.holdUntil ∧ t.nowUs = s.nowUs ∧
        t.busTrace = s.busTrace ∧ s.SamePortsBut p t ∧ s.SameConfig t

/-- R145: once the enable-high write has completed, END_HI issues the enable-low write of the same payload and changes
nothing else; with an empty slot there is nothing to read (R45) and the model stops (log 15). -/
def Obligations.EndHiWritesEnableLow : Prop :=
  ∀ s : State, s.nextMove = .endHi → s.phase = .wrHi → s.busPending = false →
    (s.slot.valid = true → step s = .next { s.advance with
      busData := clearBit s.slot.payload (ePos s.pinMap), busPending := true, phase := .wrLo }) ∧
    (s.slot.valid = false → step s = .fault .emptySlotRead)

/-- R146: once the enable-low write has completed, END_LO sets `HOLD_UNTIL` to `NOW_US + SLOT.hold` and changes nothing
else but the phase; with an empty slot the model stops (R45, log 15). -/
def Obligations.EndLoStartsTheHold : Prop :=
  ∀ s : State, s.nextMove = .endLo → s.phase = .wrLo → s.busPending = false →
    (s.slot.valid = true → step s = .next { s.advance with
      holdUntil := s.nowUs + s.slot.hold.toNat, phase := .hold }) ∧
    (s.slot.valid = false → step s = .fault .emptySlotRead)

/-- R147: END_HOLD empties the slot and goes to `IDLE`, or to `EXITED` after CLOSE, from the moment `NOW_US ≥ HOLD_UNTIL` and
at any later time, and never before. -/
def Obligations.HoldEndsNoEarlierThanItsTime : Prop :=
  ∀ s : State, s.nextMove = .endHold → s.phase = .hold →
    (s.holdUntil ≤ s.nowUs → step s = .next { s.advance with
      slot := { s.slot with valid := false }, phase := if s.closed = true then .exited else .idle }) ∧
    (s.nowUs < s.holdUntil → step s = .next s.advance)

/-- R148: an idle dispatcher exits once `CLOSED = 1`, and not before. -/
def Obligations.ExitAfterClose : Prop :=
  ∀ s : State, s.nextMove = .exit → s.phase = .idle →
    (s.closed = true → step s = .next { s.advance with phase := .exited }) ∧
    (s.closed = false → step s = .next s.advance)

/-- R213, R153: BUS_DONE appends the pending byte with the present time to the bus trace and clears `BUS_PENDING`; it brings
no result and changes nothing else; with no write pending it does not occur. -/
def Obligations.BusDoneExtendsTheTrace : Prop :=
  ∀ s : State, s.nextMove = .busDone →
    (s.busPending = true → step s = .next { s.advance with
      busTrace := s.busTrace ++ [(s.busData, s.nowUs)], busPending := false }) ∧
    (s.busPending = false → step s = .next s.advance)

/-- R212: TICK(n) advances `NOW_US` by `n` and changes nothing else. -/
def Obligations.TickAdvancesTime : Prop :=
  ∀ (s : State) (n : Nat), s.nextMove = .tick n → 1 ≤ n → step s = .next { s.advance with nowUs := s.nowUs + n }

/-- R176, R203 causes (b) and (c): CLOSE taking effect sets `CLOSED`, ends its own request with `OK` and every other
outstanding request with `ERR_CLOSED`, discarding the TimedWrites not yet accepted; it changes no idle port and nothing of
the dispatcher, the bus or the other flags. -/
def Obligations.CloseTakesEffect : Prop :=
  ∀ (s : State) (p : Nat) (port : Port),
    s.nextMove = .closeEffect p → s.ports[p]? = some port → port.state = .closeWait → s.lock = none →
    s.closed = false →
      ∃ t, step s = .next t ∧ t.closed = true ∧ t.initStarted = s.initStarted ∧ t.initDone = s.initDone ∧
        t.ports.length = s.ports.length ∧
        t.ports[p]? = some { port with state := .idle, responses := port.responses ++ [(port.req, .ok)] } ∧
        (∀ (q : Nat) (other : Port), q ≠ p → s.ports[q]? = some other →
          t.ports[q]? = some (if other.state = .idle then other else { other with
            state := .idle, units := [], idx := 0, responses := other.responses ++ [(other.req, .errClosed)] })) ∧
        s.SameConfig t ∧ s.SameDispatcher t ∧ s.SameBus t ∧ t.nowUs = s.nowUs

/-- R141, R142, R145 to R148, R170, R176, R179: a step whose guard does not hold is not taken: its agent waits and nothing
changes but that the move is used up (the model's choice, log 8); nor is the issue of what is no record (log 10). -/
def Obligations.WaitingAgentsChangeNothing : Prop :=
  ∀ s : State,
    (∀ p, s.nextMove = .accept p →
      (s.phase ≠ .idle ∨ s.busPending = true ∨ s.closed = true ∨ (∃ q, s.lock = some q ∧ q ≠ p) ∨
        ∀ port : Port, s.ports[p]? = some port → port.state ≠ .run ∨ port.units.length ≤ port.idx) →
      step s = .next s.advance) ∧
    (∀ p, s.nextMove = .closeEffect p →
      (s.lock ≠ none ∨ s.closed = true ∨ ∀ port : Port, s.ports[p]? = some port → port.state ≠ .closeWait) →
      step s = .next s.advance) ∧
    (∀ p, s.nextMove = .admitReq p →
      (∀ port : Port, s.ports[p]? = some port → port.state ≠ .idle ∨ ∀ r ∈ port.input.head?, r.whole = false) →
      step s = .next s.advance) ∧
    (∀ p r, s.nextMove = .send p r → r.whole = false → step s = .next s.advance) ∧
    (s.nextMove = .endHi → (s.phase ≠ .wrHi ∨ s.busPending = true) → step s = .next s.advance) ∧
    (s.nextMove = .endLo → (s.phase ≠ .wrLo ∨ s.busPending = true) → step s = .next s.advance) ∧
    (s.nextMove = .endHold → s.phase ≠ .hold → step s = .next s.advance) ∧
    (s.nextMove = .exit → s.phase ≠ .idle → step s = .next s.advance)

/-- R152, R245: while a bus write stays uncompleted, no step but BUS_DONE and reset changes the dispatcher or the bus; and
while the pair lock is held too, no outstanding request ends, a waiting CLOSE included. That a move whose guard does not
hold answers a next state, with nothing changed, is the model's choice (log 8). -/
def Obligations.BusStallHoldsTheDispatcher : Prop :=
  ∀ s : State, s.waitsForBus = true → s.nextMove ≠ .busDone → (∀ c, s.nextMove ≠ .reset c) →
    ∃ t, step s = .next t ∧ s.SameDispatcher t ∧ s.SameBus t ∧
      (s.lock ≠ none → ∀ (p : Nat) (port : Port), s.ports[p]? = some port → port.state ≠ .idle →
        ∃ port' : Port, t.ports[p]? = some port' ∧ port'.state = port.state ∧ port'.units = port.units ∧ port'.idx = port.idx)

/-- R234, R230: reset while running samples the configuration, sets `CFG_ERR` by the check, and puts every other element
the spec gives a reset value to it, abandoning every request without a response; the time does not go back (R50). That
the traces and the host's streams stay is the model's choice (log 11), as are the values of `P_OP` and of the empty slot's
fields, which this statement leaves out (logs 5, 6). -/
def Obligations.ResetWhileRunning : Prop :=
  ∀ (s : State) (c : Params), s.nextMove = .reset c →
    ∃ t, step s = .next t ∧
      t.pinMap = c.pinMap ∧ t.busChannel = c.busChannel ∧ t.busAddr = c.busAddr ∧
      t.cfgErr = !cfgOk c.pinMap c.busAddr ∧ t.initStarted = false ∧ t.initDone = false ∧ t.closed = false ∧
      t.slot.valid = false ∧ t.phase = .idle ∧ t.lock = none ∧ t.holdUntil = 0 ∧ t.busPending = false ∧
      t.busData = 0x00#8 ∧ s.nowUs ≤ t.nowUs ∧ t.busTrace = s.busTrace ∧ t.ports.length = s.ports.length ∧
      ∀ (p : Nat) (port : Port), s.ports[p]? = some port → ∃ port' : Port, t.ports[p]? = some port' ∧ port'.state = .idle ∧
        port'.units = [] ∧ port'.idx = 0 ∧ port'.input = port.input ∧ port'.responses = port.responses

/-- R230: the values the spec gives for reset, for any parameters; reset issues no bus write and starts no request. -/
def Obligations.PowerOnResetValues : Prop :=
  ∀ (nprod : Nat) (c : Params),
    (State.resetWith nprod c).pinMap = c.pinMap ∧ (State.resetWith nprod c).busChannel = c.busChannel ∧
    (State.resetWith nprod c).busAddr = c.busAddr ∧
    ((State.resetWith nprod c).cfgErr = false ↔ cfgOk c.pinMap c.busAddr = true) ∧
    (State.resetWith nprod c).initStarted = false ∧ (State.resetWith nprod c).initDone = false ∧
    (State.resetWith nprod c).closed = false ∧ (State.resetWith nprod c).slot.valid = false ∧
    (State.resetWith nprod c).phase = .idle ∧ (State.resetWith nprod c).lock = none ∧
    (State.resetWith nprod c).holdUntil = 0 ∧ (State.resetWith nprod c).busPending = false ∧
    (State.resetWith nprod c).busData = 0x00#8 ∧ (State.resetWith nprod c).nowUs = c.now0 ∧
    (State.resetWith nprod c).ports.length = nprod ∧
    ∀ port ∈ (State.resetWith nprod c).ports, port.state = .idle ∧ port.units = [] ∧ port.idx = 0

/-- R231: the configuration check holds exactly when the four flag positions are 0 to 3 in some order, the data lines are at
4 to 7 in order, the reserved bits are 0 and `BUS_ADDR` is at most 0x7F; and then all eight positions are distinct.
Reset sets `CFG_ERR` to 0 where it holds and to 1 elsewhere; `BUS_CHANNEL` is not looked at. -/
def Obligations.ConfigurationCheckDecides : Prop :=
  ∀ (pm : PinMap) (busAddr : Byte),
    (cfgOk pm busAddr = true ↔
      [rsPos pm, rwPos pm, ePos pm, blPos pm].Perm [0#3, 1#3, 2#3, 3#3] ∧
      d4Pos pm = 4#3 ∧ d5Pos pm = 5#3 ∧ d6Pos pm = 6#3 ∧ d7Pos pm = 7#3 ∧
      pm.extractLsb' 24 8 = 0#8 ∧ busAddr ≤ 0x7F#8) ∧
    (cfgOk pm busAddr = true →
      [rsPos pm, rwPos pm, ePos pm, d4Pos pm, d5Pos pm, d6Pos pm, d7Pos pm, blPos pm].Nodup) ∧
    ∀ (nprod : Nat) (c : Params), c.pinMap = pm → c.busAddr = busAddr →
      (State.resetWith nprod c).cfgErr = !cfgOk pm busAddr

/-- R38: each bit of `STATUS` is its flag, bit 4 is 1 exactly in `EXITED`, and bits 7:5 are 0. -/
def Obligations.StatusViewBits : Prop :=
  ∀ s : State,
    s.status.getLsbD 0 = s.cfgErr ∧ s.status.getLsbD 1 = s.initStarted ∧ s.status.getLsbD 2 = s.initDone ∧
    s.status.getLsbD 3 = s.closed ∧ s.status.getLsbD 4 = decide (s.phase = .exited) ∧
    s.status.extractLsb' 5 3 = 0#3

/-- The invariant of the block, that of the bus trace and that of the streams hold at reset, for any parameters and any
number of ports from 1 on. -/
def Obligations.InvariantsHoldAtReset : Prop :=
  ∀ (nprod : Nat) (c : Params), 1 ≤ nprod →
    (State.resetWith nprod c).Inv ∧ (State.resetWith nprod c).TraceInv ∧ (State.resetWith nprod c).StreamsWhole

/-- HEADLINE: every step of every agent, in every schedule, keeps the invariant of the block (R34 to R49, R111, R120,
R155): from any state that meets it, not only from those a run reaches. And every step keeps the streams made of whole
records (R80, R217; log 10), in any state at all. -/
def Obligations.EveryStepKeepsTheInvariant : Prop :=
  ∀ s t : State, step s = .next t → (s.Inv → t.Inv) ∧ (s.StreamsWhole → t.StreamsWhole)

/-- From a state that meets the invariant no step faults and none is refused: every move is taken or waits (R200; log 8). -/
def Obligations.GoodStatesNeverStop : Prop :=
  ∀ s : State, s.Inv → ∃ t, step s = .next t

/-- R30, R34 to R37, R50: but for reset, no step writes the configuration or `CFG_ERR`, none clears a flag, and no step at
all takes the time back or changes the number of ports. That a reset keeps both, the number of ports being a parameter
(R6), is the model's choice (logs 3, 11). -/
def Obligations.FlagsAndConfigurationPersist : Prop :=
  ∀ s t : State, step s = .next t →
    s.nowUs ≤ t.nowUs ∧ t.ports.length = s.ports.length ∧
    ((∀ c, s.nextMove ≠ .reset c) →
      s.SameConfig t ∧ (s.initStarted = true → t.initStarted = true) ∧ (s.initDone = true → t.initDone = true) ∧
      (s.closed = true → t.closed = true))

/-- R140, R60, R69: a bus write is issued by ACCEPT and END_HI alone, and only while none is pending; the bus trace grows by
BUS_DONE alone, by the byte that was pending. That a reset keeps the trace is the model's choice (log 11). -/
def Obligations.OnlyTheDispatcherWritesTheBus : Prop :=
  ∀ s t : State, step s = .next t →
    (t.busPending = true → (s.busPending = true ∧ t.busData = s.busData) ∨
      (s.busPending = false ∧ ((∃ p, s.nextMove = .accept p) ∨ s.nextMove = .endHi))) ∧
    (t.busTrace = s.busTrace ∨
      (s.nextMove = .busDone ∧ s.busPending = true ∧ t.busTrace = s.busTrace ++ [(s.busData, s.nowUs)]))

/-- R72, R141, R143, R176: while producer `q` holds the pair lock, the only step (but reset) that moves the lock is the
acceptance of `q`'s `SECOND`; no other producer's TimedWrite is accepted and no CLOSE takes effect. -/
def Obligations.PairLockExcludesOtherProducers : Prop :=
  ∀ (s t : State) (q : Nat), s.Inv → s.lock = some q → (∀ c, s.nextMove ≠ .reset c) → step s = .next t →
    t.closed = s.closed ∧
    (∀ (p : Nat) (port port' : Port), p ≠ q → s.ports[p]? = some port → t.ports[p]? = some port' → port.state = .run →
      port'.idx = port.idx ∧ port'.state = .run) ∧
    (t.lock = some q ∨
      (t.lock = none ∧ s.nextMove = .accept q ∧ t.slot.owner = q ∧ t.slot.pair = .second ∧ t.phase = .wrHi))

/-- R149, R45: while a TimedWrite is in the slot no other is taken: no running producer's index moves, and the slot keeps its
TimedWrite until END_HOLD (or reset). -/
def Obligations.OccupiedSlotBlocksHandoff : Prop :=
  ∀ s t : State, s.Inv → s.slot.valid = true → (∀ c, s.nextMove ≠ .reset c) → step s = .next t →
    (t.slot = s.slot ∨ (s.nextMove = .endHold ∧ t.slot = { s.slot with valid := false })) ∧
    ∀ (p : Nat) (port port' : Port), s.ports[p]? = some port → t.ports[p]? = some port' → port.state = .run → port'.state = .run →
      port'.idx = port.idx ∧ port'.units = port.units

/-- R154: `EXITED` is terminal: but for reset no dispatcher step is enabled in it (nothing of the dispatcher changes),
no bus write is issued, and the bus trace is final. -/
def Obligations.ExitedIsTerminal : Prop :=
  ∀ s t : State, s.Inv → s.phase = .exited → (∀ c, s.nextMove ≠ .reset c) → step s = .next t →
    s.SameDispatcher t ∧ s.SameBus t ∧ t.busPending = false

/-- R155: while `CFG_ERR = 1`, but for reset no producer runs, no bus write is issued and the bus trace does not grow. -/
def Obligations.MisconfiguredBlockStaysSilent : Prop :=
  ∀ s t : State, s.Inv → s.cfgErr = true → (∀ c, s.nextMove ≠ .reset c) → step s = .next t →
    t.cfgErr = true ∧ t.phase = .idle ∧ t.busPending = false ∧ t.busTrace = s.busTrace ∧
    ∀ (p : Nat) (port : Port), t.ports[p]? = some port → port.state = .idle

/-- HEADLINE: every step but reset keeps the invariant of the bus trace: the bytes on the bus form enable pulses, the same
byte with the enable bit set and then cleared (R65, R111), and between an enable-low completion and the next enable-high
completion at least the shortest hold, 1000 µs, passes (R74, R147). -/
def Obligations.EveryStepKeepsTheTraceInvariant : Prop :=
  ∀ s t : State, s.Inv → s.TraceInv → (∀ c, s.nextMove ≠ .reset c) → step s = .next t → t.TraceInv

/-- A request that is admitted and whose TimedWrites are then accepted one after the other, on a bus that completes
each write, puts exactly the bytes of its expansion on the bus, in order and each as an enable pulse, ends with `OK`, and
takes the sum of its holds (R129, R142 to R147, R150, R171 to R175, R249). The schedule is one of the model's agenda
(log 7). -/
def Obligations.AdmittedRequestWritesItsBytes : Prop :=
  ∀ (s : State) (p : Nat) (port : Port) (i : Instr) (rest : List Record) (later : List Move),
    s.ports[p]? = some port → port.state = .idle → port.input = recordOf i :: rest → wellFormed i = true → i ≠ .close →
    s.cfgErr = false → s.closed = false → (if i = .init then s.initStarted = false else s.initDone = true) →
    s.phase = .idle → s.lock = none → s.busPending = false →
    s.agenda = .admitReq p :: (expand s.pinMap i).flatMap (pulseMoves p) ++ later →
      ∃ t, Host.Core.run core (1 + 7 * (expand s.pinMap i).length) s = .next t ∧
        t.busTrace.map Prod.fst = s.busTrace.map Prod.fst ++ (expand s.pinMap i).flatMap (busBytes s.pinMap) ∧
        t.nowUs = s.nowUs + holdSum (expand s.pinMap i) ∧
        t.ports[p]? = some { port with
          input := rest, op := opcode i, req := .legal i, units := [], idx := 0
          responses := port.responses ++ [(.legal i, .ok)] } ∧
        s.SamePortsBut p t ∧ s.SameConfig t ∧ t.initDone = (s.initDone || decide (i = .init)) ∧
        t.closed = false ∧ t.phase = .idle ∧ t.lock = none ∧ t.busPending = false ∧ t.agenda = later

/-- R212, R215: under the fairness assumption that TICK is taken infinitely often, every hold expires: from any state of any
endless run under any such schedule, some later state has `NOW_US` at or past the hold's end. -/
def Obligations.HoldEventuallyExpires : Prop :=
  ∀ (schedule : Nat → Move) (run : Nat → State), IsRun schedule run → TimeFair schedule →
    ∀ n, ∃ m, n ≤ m ∧ (run n).holdUntil ≤ (run m).nowUs

/-- R87, R179, R217: one step adds at most one response to a port, and only when the port is then idle; a port whose request
ends, but by reset, has got exactly one. The response names its request as R78 has it (log 18). That a reset keeps the
response trace is the model's choice (log 11). -/
def Obligations.OneResponsePerRequest : Prop :=
  ∀ (s t : State) (p : Nat) (port port' : Port), step s = .next t → s.ports[p]? = some port → t.ports[p]? = some port' →
    (port'.responses = port.responses ∨
      ∃ r st, port'.responses = port.responses ++ [(r, st)] ∧ port'.state = .idle) ∧
    ((∀ c, s.nextMove ≠ .reset c) → port.state ≠ .idle → port'.state = .idle →
      ∃ st, port'.responses = port.responses ++ [(port.req, st)])

/-- R89, R91: every request the assembler makes can be encoded; and the pseudo-instruction stands for a row print for row 1
or 2 only. -/
def Obligations.AssembledRequestsAreWellFormed : Prop :=
  (∀ (line : List Char) (p : Nat) (i : Instr), assembleRequest line = some (p, i) → wellFormed i = true) ∧
  (∀ (r : Nat) (text : List Byte) (i : Instr), printRow r text = some i ↔
    text.length ≤ 255 ∧ ((r = 1 ∧ i = .printRow1 text) ∨ (r = 2 ∧ i = .printRow2 text)))

/-- R79: in a finished run nothing happens any more unless the host issues a request or resets the block: the bus and its
trace stay as they are and the run stays finished. Which states are finished is R79's list, "no further request to issue" being
read as the streams being empty; decision D30 words it otherwise; both readings are the model's choice (log 22). -/
def Obligations.FinishedRunsStayQuiet : Prop :=
  ∀ s t : State, s.Inv → s.finished = true → (∀ c, s.nextMove ≠ .reset c) → (∀ p r, s.nextMove ≠ .send p r) →
    step s = .next t → t.finished = true ∧ s.SameBus t ∧ t.ports = s.ports

/-- R76, R143: forward progress under the pair lock. In every endless run without a reset whose arbiter is weakly fair, from a
state that meets the invariant with the lock held by `q`, `q`'s next TimedWrite is eventually accepted; until then `q`
keeps the lock and is the only eligible producer. Fairness is a hypothesis about the run (log 12), not a property of
`step`. -/
def Obligations.PairLockHolderMakesProgress : Prop :=
  ∀ (schedule : Nat → Move) (run : Nat → State) (n q : Nat), IsRun schedule run → ArbiterFair schedule run →
    (∀ m c, schedule m ≠ .reset c) → (run n).Inv → (run n).lock = some q →
      ∃ m, n ≤ m ∧ acceptsAt schedule run q m ∧
        ∀ k, n ≤ k → k ≤ m → (run k).lock = some q ∧ ∀ p, (run k).eligible p = true ↔ p = q
end

