-- ==== Sys2Proof/Laws/Engine.lean ====
section
/-!
SUPPORT. Small lemmas of the Protocol Engine's lists, so that no later proof unfolds them: how long the pieces are, and
that units put together are units.
-/

namespace Sys2Proof.Machine

@[simp] theorem byteWrites_length (pm : PinMap) (kind : FrameKind) (v : Byte) : (byteWrites pm kind v).length = 2 := rfl

/-- A text's bytes take two TimedWrites each (R121). -/
theorem flatMap_byteWrites_length (pm : PinMap) (kind : FrameKind) (text : List Byte) :
    (text.flatMap (byteWrites pm kind)).length = 2 * text.length := by
  induction text with
  | nil => rfl
  | cons v rest ih =>
    simp only [List.flatMap_cons, List.length_append, ih, byteWrites_length, List.length_cons]
    omega

/-- The hold and the pair tag of each half of a byte (R121). -/
theorem mem_byteWrites {pm : PinMap} {kind : FrameKind} {v : Byte} {tw : TimedWrite} (h : tw ∈ byteWrites pm kind v) :
    tw = ⟨hiByte (nib pm kind) v, holdStdUs, .first⟩ ∨ tw = ⟨loByte (nib pm kind) v, holdStdUs, .second⟩ := by
  simpa [byteWrites] using h

/-- A byte's pair in front of units (R120). -/
@[simp] theorem isUnits_byteWrites_append (pm : PinMap) (kind : FrameKind) (v : Byte) (tws : List TimedWrite) :
    isUnits (byteWrites pm kind v ++ tws) = isUnits tws := by
  simp [byteWrites, isUnits]

/-- A text's bytes in front of units (R120). -/
theorem isUnits_flatMap_append (pm : PinMap) (kind : FrameKind) (text : List Byte) (tws : List TimedWrite) :
    isUnits (text.flatMap (byteWrites pm kind) ++ tws) = isUnits tws := by
  induction text with
  | nil => rfl
  | cons v rest ih => simp [ih]

/-- Holds of lists put together (R249). -/
theorem holdSum_append (a b : List TimedWrite) : holdSum (a ++ b) = holdSum a + holdSum b := by
  simp [holdSum]

/-- The rest of a list from a place that holds an element. -/
theorem drop_of_getElem? {α : Type} {l : List α} {n : Nat} {a : α} (h : l[n]? = some a) :
    l.drop n = a :: l.drop (n + 1) := by
  obtain ⟨h1, h2⟩ := List.getElem?_eq_some_iff.1 h
  rw [List.drop_eq_getElem_cons h1, h2]

end Sys2Proof.Machine
end

