-- ==== Sys2Proof/Laws/State.lean ====
section
/-!
SUPPORT. One lemma per field per update of `State`, and of `Port`: so that no later proof unfolds a record update.
-/

namespace Sys2Proof.Machine

variable (s : State)

@[simp] theorem State.setPort_pinMap (p : Nat) (port : Port) :
    (s.setPort p port).pinMap = s.pinMap := rfl
@[simp] theorem State.setPort_busChannel (p : Nat) (port : Port) :
    (s.setPort p port).busChannel = s.busChannel := rfl
@[simp] theorem State.setPort_busAddr (p : Nat) (port : Port) :
    (s.setPort p port).busAddr = s.busAddr := rfl
@[simp] theorem State.setPort_cfgErr (p : Nat) (port : Port) :
    (s.setPort p port).cfgErr = s.cfgErr := rfl
@[simp] theorem State.setPort_initStarted (p : Nat) (port : Port) :
    (s.setPort p port).initStarted = s.initStarted := rfl
@[simp] theorem State.setPort_initDone (p : Nat) (port : Port) :
    (s.setPort p port).initDone = s.initDone := rfl
@[simp] theorem State.setPort_closed (p : Nat) (port : Port) :
    (s.setPort p port).closed = s.closed := rfl
@[simp] theorem State.setPort_ports (p : Nat) (port : Port) :
    (s.setPort p port).ports = s.ports.set p port := rfl
@[simp] theorem State.setPort_slot (p : Nat) (port : Port) :
    (s.setPort p port).slot = s.slot := rfl
@[simp] theorem State.setPort_phase (p : Nat) (port : Port) :
    (s.setPort p port).phase = s.phase := rfl
@[simp] theorem State.setPort_lock (p : Nat) (port : Port) :
    (s.setPort p port).lock = s.lock := rfl
@[simp] theorem State.setPort_holdUntil (p : Nat) (port : Port) :
    (s.setPort p port).holdUntil = s.holdUntil := rfl
@[simp] theorem State.setPort_busPending (p : Nat) (port : Port) :
    (s.setPort p port).busPending = s.busPending := rfl
@[simp] theorem State.setPort_busData (p : Nat) (port : Port) :
    (s.setPort p port).busData = s.busData := rfl
@[simp] theorem State.setPort_nowUs (p : Nat) (port : Port) :
    (s.setPort p port).nowUs = s.nowUs := rfl
@[simp] theorem State.setPort_busTrace (p : Nat) (port : Port) :
    (s.setPort p port).busTrace = s.busTrace := rfl
@[simp] theorem State.setPort_cur (p : Nat) (port : Port) :
    (s.setPort p port).cur = s.cur := rfl
@[simp] theorem State.setPort_agenda (p : Nat) (port : Port) :
    (s.setPort p port).agenda = s.agenda := rfl
@[simp] theorem State.setPort_turn (p : Nat) (port : Port) :
    (s.setPort p port).turn = s.turn := rfl

@[simp] theorem State.setInitStarted_pinMap :
    (s.setInitStarted).pinMap = s.pinMap := rfl
@[simp] theorem State.setInitStarted_busChannel :
    (s.setInitStarted).busChannel = s.busChannel := rfl
@[simp] theorem State.setInitStarted_busAddr :
    (s.setInitStarted).busAddr = s.busAddr := rfl
@[simp] theorem State.setInitStarted_cfgErr :
    (s.setInitStarted).cfgErr = s.cfgErr := rfl
@[simp] theorem State.setInitStarted_initStarted :
    (s.setInitStarted).initStarted = true := rfl
@[simp] theorem State.setInitStarted_initDone :
    (s.setInitStarted).initDone = s.initDone := rfl
@[simp] theorem State.setInitStarted_closed :
    (s.setInitStarted).closed = s.closed := rfl
@[simp] theorem State.setInitStarted_ports :
    (s.setInitStarted).ports = s.ports := rfl
@[simp] theorem State.setInitStarted_slot :
    (s.setInitStarted).slot = s.slot := rfl
@[simp] theorem State.setInitStarted_phase :
    (s.setInitStarted).phase = s.phase := rfl
@[simp] theorem State.setInitStarted_lock :
    (s.setInitStarted).lock = s.lock := rfl
@[simp] theorem State.setInitStarted_holdUntil :
    (s.setInitStarted).holdUntil = s.holdUntil := rfl
@[simp] theorem State.setInitStarted_busPending :
    (s.setInitStarted).busPending = s.busPending := rfl
@[simp] theorem State.setInitStarted_busData :
    (s.setInitStarted).busData = s.busData := rfl
@[simp] theorem State.setInitStarted_nowUs :
    (s.setInitStarted).nowUs = s.nowUs := rfl
@[simp] theorem State.setInitStarted_busTrace :
    (s.setInitStarted).busTrace = s.busTrace := rfl
@[simp] theorem State.setInitStarted_cur :
    (s.setInitStarted).cur = s.cur := rfl
@[simp] theorem State.setInitStarted_agenda :
    (s.setInitStarted).agenda = s.agenda := rfl
@[simp] theorem State.setInitStarted_turn :
    (s.setInitStarted).turn = s.turn := rfl

@[simp] theorem State.setClosed_pinMap :
    (s.setClosed).pinMap = s.pinMap := rfl
@[simp] theorem State.setClosed_busChannel :
    (s.setClosed).busChannel = s.busChannel := rfl
@[simp] theorem State.setClosed_busAddr :
    (s.setClosed).busAddr = s.busAddr := rfl
@[simp] theorem State.setClosed_cfgErr :
    (s.setClosed).cfgErr = s.cfgErr := rfl
@[simp] theorem State.setClosed_initStarted :
    (s.setClosed).initStarted = s.initStarted := rfl
@[simp] theorem State.setClosed_initDone :
    (s.setClosed).initDone = s.initDone := rfl
@[simp] theorem State.setClosed_closed :
    (s.setClosed).closed = true := rfl
@[simp] theorem State.setClosed_ports :
    (s.setClosed).ports = s.ports := rfl
@[simp] theorem State.setClosed_slot :
    (s.setClosed).slot = s.slot := rfl
@[simp] theorem State.setClosed_phase :
    (s.setClosed).phase = s.phase := rfl
@[simp] theorem State.setClosed_lock :
    (s.setClosed).lock = s.lock := rfl
@[simp] theorem State.setClosed_holdUntil :
    (s.setClosed).holdUntil = s.holdUntil := rfl
@[simp] theorem State.setClosed_busPending :
    (s.setClosed).busPending = s.busPending := rfl
@[simp] theorem State.setClosed_busData :
    (s.setClosed).busData = s.busData := rfl
@[simp] theorem State.setClosed_nowUs :
    (s.setClosed).nowUs = s.nowUs := rfl
@[simp] theorem State.setClosed_busTrace :
    (s.setClosed).busTrace = s.busTrace := rfl
@[simp] theorem State.setClosed_cur :
    (s.setClosed).cur = s.cur := rfl
@[simp] theorem State.setClosed_agenda :
    (s.setClosed).agenda = s.agenda := rfl
@[simp] theorem State.setClosed_turn :
    (s.setClosed).turn = s.turn := rfl

@[simp] theorem State.busWrite_pinMap (b : Byte) :
    (s.busWrite b).pinMap = s.pinMap := rfl
@[simp] theorem State.busWrite_busChannel (b : Byte) :
    (s.busWrite b).busChannel = s.busChannel := rfl
@[simp] theorem State.busWrite_busAddr (b : Byte) :
    (s.busWrite b).busAddr = s.busAddr := rfl
@[simp] theorem State.busWrite_cfgErr (b : Byte) :
    (s.busWrite b).cfgErr = s.cfgErr := rfl
@[simp] theorem State.busWrite_initStarted (b : Byte) :
    (s.busWrite b).initStarted = s.initStarted := rfl
@[simp] theorem State.busWrite_initDone (b : Byte) :
    (s.busWrite b).initDone = s.initDone := rfl
@[simp] theorem State.busWrite_closed (b : Byte) :
    (s.busWrite b).closed = s.closed := rfl
@[simp] theorem State.busWrite_ports (b : Byte) :
    (s.busWrite b).ports = s.ports := rfl
@[simp] theorem State.busWrite_slot (b : Byte) :
    (s.busWrite b).slot = s.slot := rfl
@[simp] theorem State.busWrite_phase (b : Byte) :
    (s.busWrite b).phase = s.phase := rfl
@[simp] theorem State.busWrite_lock (b : Byte) :
    (s.busWrite b).lock = s.lock := rfl
@[simp] theorem State.busWrite_holdUntil (b : Byte) :
    (s.busWrite b).holdUntil = s.holdUntil := rfl
@[simp] theorem State.busWrite_busPending (b : Byte) :
    (s.busWrite b).busPending = true := rfl
@[simp] theorem State.busWrite_busData (b : Byte) :
    (s.busWrite b).busData = b := rfl
@[simp] theorem State.busWrite_nowUs (b : Byte) :
    (s.busWrite b).nowUs = s.nowUs := rfl
@[simp] theorem State.busWrite_busTrace (b : Byte) :
    (s.busWrite b).busTrace = s.busTrace := rfl
@[simp] theorem State.busWrite_cur (b : Byte) :
    (s.busWrite b).cur = s.cur := rfl
@[simp] theorem State.busWrite_agenda (b : Byte) :
    (s.busWrite b).agenda = s.agenda := rfl
@[simp] theorem State.busWrite_turn (b : Byte) :
    (s.busWrite b).turn = s.turn := rfl

@[simp] theorem State.busDone_pinMap :
    (s.busDone).pinMap = s.pinMap := rfl
@[simp] theorem State.busDone_busChannel :
    (s.busDone).busChannel = s.busChannel := rfl
@[simp] theorem State.busDone_busAddr :
    (s.busDone).busAddr = s.busAddr := rfl
@[simp] theorem State.busDone_cfgErr :
    (s.busDone).cfgErr = s.cfgErr := rfl
@[simp] theorem State.busDone_initStarted :
    (s.busDone).initStarted = s.initStarted := rfl
@[simp] theorem State.busDone_initDone :
    (s.busDone).initDone = s.initDone := rfl
@[simp] theorem State.busDone_closed :
    (s.busDone).closed = s.closed := rfl
@[simp] theorem State.busDone_ports :
    (s.busDone).ports = s.ports := rfl
@[simp] theorem State.busDone_slot :
    (s.busDone).slot = s.slot := rfl
@[simp] theorem State.busDone_phase :
    (s.busDone).phase = s.phase := rfl
@[simp] theorem State.busDone_lock :
    (s.busDone).lock = s.lock := rfl
@[simp] theorem State.busDone_holdUntil :
    (s.busDone).holdUntil = s.holdUntil := rfl
@[simp] theorem State.busDone_busPending :
    (s.busDone).busPending = false := rfl
@[simp] theorem State.busDone_busData :
    (s.busDone).busData = s.busData := rfl
@[simp] theorem State.busDone_nowUs :
    (s.busDone).nowUs = s.nowUs := rfl
@[simp] theorem State.busDone_busTrace :
    (s.busDone).busTrace = s.busTrace ++ [(s.busData, s.nowUs)] := rfl
@[simp] theorem State.busDone_cur :
    (s.busDone).cur = s.cur := rfl
@[simp] theorem State.busDone_agenda :
    (s.busDone).agenda = s.agenda := rfl
@[simp] theorem State.busDone_turn :
    (s.busDone).turn = s.turn := rfl

@[simp] theorem State.tick_pinMap (n : Nat) :
    (s.tick n).pinMap = s.pinMap := rfl
@[simp] theorem State.tick_busChannel (n : Nat) :
    (s.tick n).busChannel = s.busChannel := rfl
@[simp] theorem State.tick_busAddr (n : Nat) :
    (s.tick n).busAddr = s.busAddr := rfl
@[simp] theorem State.tick_cfgErr (n : Nat) :
    (s.tick n).cfgErr = s.cfgErr := rfl
@[simp] theorem State.tick_initStarted (n : Nat) :
    (s.tick n).initStarted = s.initStarted := rfl
@[simp] theorem State.tick_initDone (n : Nat) :
    (s.tick n).initDone = s.initDone := rfl
@[simp] theorem State.tick_closed (n : Nat) :
    (s.tick n).closed = s.closed := rfl
@[simp] theorem State.tick_ports (n : Nat) :
    (s.tick n).ports = s.ports := rfl
@[simp] theorem State.tick_slot (n : Nat) :
    (s.tick n).slot = s.slot := rfl
@[simp] theorem State.tick_phase (n : Nat) :
    (s.tick n).phase = s.phase := rfl
@[simp] theorem State.tick_lock (n : Nat) :
    (s.tick n).lock = s.lock := rfl
@[simp] theorem State.tick_holdUntil (n : Nat) :
    (s.tick n).holdUntil = s.holdUntil := rfl
@[simp] theorem State.tick_busPending (n : Nat) :
    (s.tick n).busPending = s.busPending := rfl
@[simp] theorem State.tick_busData (n : Nat) :
    (s.tick n).busData = s.busData := rfl
@[simp] theorem State.tick_nowUs (n : Nat) :
    (s.tick n).nowUs = s.nowUs + n := rfl
@[simp] theorem State.tick_busTrace (n : Nat) :
    (s.tick n).busTrace = s.busTrace := rfl
@[simp] theorem State.tick_cur (n : Nat) :
    (s.tick n).cur = s.cur := rfl
@[simp] theorem State.tick_agenda (n : Nat) :
    (s.tick n).agenda = s.agenda := rfl
@[simp] theorem State.tick_turn (n : Nat) :
    (s.tick n).turn = s.turn := rfl

@[simp] theorem State.endHold_pinMap :
    (s.endHold).pinMap = s.pinMap := rfl
@[simp] theorem State.endHold_busChannel :
    (s.endHold).busChannel = s.busChannel := rfl
@[simp] theorem State.endHold_busAddr :
    (s.endHold).busAddr = s.busAddr := rfl
@[simp] theorem State.endHold_cfgErr :
    (s.endHold).cfgErr = s.cfgErr := rfl
@[simp] theorem State.endHold_initStarted :
    (s.endHold).initStarted = s.initStarted := rfl
@[simp] theorem State.endHold_initDone :
    (s.endHold).initDone = s.initDone := rfl
@[simp] theorem State.endHold_closed :
    (s.endHold).closed = s.closed := rfl
@[simp] theorem State.endHold_ports :
    (s.endHold).ports = s.ports := rfl
@[simp] theorem State.endHold_slot :
    (s.endHold).slot = { s.slot with valid := false } := rfl
@[simp] theorem State.endHold_phase :
    (s.endHold).phase = if s.closed then .exited else .idle := rfl
@[simp] theorem State.endHold_lock :
    (s.endHold).lock = s.lock := rfl
@[simp] theorem State.endHold_holdUntil :
    (s.endHold).holdUntil = s.holdUntil := rfl
@[simp] theorem State.endHold_busPending :
    (s.endHold).busPending = s.busPending := rfl
@[simp] theorem State.endHold_busData :
    (s.endHold).busData = s.busData := rfl
@[simp] theorem State.endHold_nowUs :
    (s.endHold).nowUs = s.nowUs := rfl
@[simp] theorem State.endHold_busTrace :
    (s.endHold).busTrace = s.busTrace := rfl
@[simp] theorem State.endHold_cur :
    (s.endHold).cur = s.cur := rfl
@[simp] theorem State.endHold_agenda :
    (s.endHold).agenda = s.agenda := rfl
@[simp] theorem State.endHold_turn :
    (s.endHold).turn = s.turn := rfl

@[simp] theorem State.exitLoop_pinMap :
    (s.exitLoop).pinMap = s.pinMap := rfl
@[simp] theorem State.exitLoop_busChannel :
    (s.exitLoop).busChannel = s.busChannel := rfl
@[simp] theorem State.exitLoop_busAddr :
    (s.exitLoop).busAddr = s.busAddr := rfl
@[simp] theorem State.exitLoop_cfgErr :
    (s.exitLoop).cfgErr = s.cfgErr := rfl
@[simp] theorem State.exitLoop_initStarted :
    (s.exitLoop).initStarted = s.initStarted := rfl
@[simp] theorem State.exitLoop_initDone :
    (s.exitLoop).initDone = s.initDone := rfl
@[simp] theorem State.exitLoop_closed :
    (s.exitLoop).closed = s.closed := rfl
@[simp] theorem State.exitLoop_ports :
    (s.exitLoop).ports = s.ports := rfl
@[simp] theorem State.exitLoop_slot :
    (s.exitLoop).slot = s.slot := rfl
@[simp] theorem State.exitLoop_phase :
    (s.exitLoop).phase = .exited := rfl
@[simp] theorem State.exitLoop_lock :
    (s.exitLoop).lock = s.lock := rfl
@[simp] theorem State.exitLoop_holdUntil :
    (s.exitLoop).holdUntil = s.holdUntil := rfl
@[simp] theorem State.exitLoop_busPending :
    (s.exitLoop).busPending = s.busPending := rfl
@[simp] theorem State.exitLoop_busData :
    (s.exitLoop).busData = s.busData := rfl
@[simp] theorem State.exitLoop_nowUs :
    (s.exitLoop).nowUs = s.nowUs := rfl
@[simp] theorem State.exitLoop_busTrace :
    (s.exitLoop).busTrace = s.busTrace := rfl
@[simp] theorem State.exitLoop_cur :
    (s.exitLoop).cur = s.cur := rfl
@[simp] theorem State.exitLoop_agenda :
    (s.exitLoop).agenda = s.agenda := rfl
@[simp] theorem State.exitLoop_turn :
    (s.exitLoop).turn = s.turn := rfl

@[simp] theorem State.closeEffect_pinMap (p : Nat) :
    (s.closeEffect p).pinMap = s.pinMap := rfl
@[simp] theorem State.closeEffect_busChannel (p : Nat) :
    (s.closeEffect p).busChannel = s.busChannel := rfl
@[simp] theorem State.closeEffect_busAddr (p : Nat) :
    (s.closeEffect p).busAddr = s.busAddr := rfl
@[simp] theorem State.closeEffect_cfgErr (p : Nat) :
    (s.closeEffect p).cfgErr = s.cfgErr := rfl
@[simp] theorem State.closeEffect_initStarted (p : Nat) :
    (s.closeEffect p).initStarted = s.initStarted := rfl
@[simp] theorem State.closeEffect_initDone (p : Nat) :
    (s.closeEffect p).initDone = s.initDone := rfl
@[simp] theorem State.closeEffect_closed (p : Nat) :
    (s.closeEffect p).closed = true := rfl
@[simp] theorem State.closeEffect_ports (p : Nat) :
    (s.closeEffect p).ports = closePorts p s.ports := rfl
@[simp] theorem State.closeEffect_slot (p : Nat) :
    (s.closeEffect p).slot = s.slot := rfl
@[simp] theorem State.closeEffect_phase (p : Nat) :
    (s.closeEffect p).phase = s.phase := rfl
@[simp] theorem State.closeEffect_lock (p : Nat) :
    (s.closeEffect p).lock = s.lock := rfl
@[simp] theorem State.closeEffect_holdUntil (p : Nat) :
    (s.closeEffect p).holdUntil = s.holdUntil := rfl
@[simp] theorem State.closeEffect_busPending (p : Nat) :
    (s.closeEffect p).busPending = s.busPending := rfl
@[simp] theorem State.closeEffect_busData (p : Nat) :
    (s.closeEffect p).busData = s.busData := rfl
@[simp] theorem State.closeEffect_nowUs (p : Nat) :
    (s.closeEffect p).nowUs = s.nowUs := rfl
@[simp] theorem State.closeEffect_busTrace (p : Nat) :
    (s.closeEffect p).busTrace = s.busTrace := rfl
@[simp] theorem State.closeEffect_cur (p : Nat) :
    (s.closeEffect p).cur = s.cur := rfl
@[simp] theorem State.closeEffect_agenda (p : Nat) :
    (s.closeEffect p).agenda = s.agenda := rfl
@[simp] theorem State.closeEffect_turn (p : Nat) :
    (s.closeEffect p).turn = s.turn := rfl

@[simp] theorem State.reject_pinMap (port : Port) (r : Request) (code : Status) :
    (s.reject port r code).pinMap = s.pinMap := rfl
@[simp] theorem State.reject_busChannel (port : Port) (r : Request) (code : Status) :
    (s.reject port r code).busChannel = s.busChannel := rfl
@[simp] theorem State.reject_busAddr (port : Port) (r : Request) (code : Status) :
    (s.reject port r code).busAddr = s.busAddr := rfl
@[simp] theorem State.reject_cfgErr (port : Port) (r : Request) (code : Status) :
    (s.reject port r code).cfgErr = s.cfgErr := rfl
@[simp] theorem State.reject_initStarted (port : Port) (r : Request) (code : Status) :
    (s.reject port r code).initStarted = s.initStarted := rfl
@[simp] theorem State.reject_initDone (port : Port) (r : Request) (code : Status) :
    (s.reject port r code).initDone = s.initDone := rfl
@[simp] theorem State.reject_closed (port : Port) (r : Request) (code : Status) :
    (s.reject port r code).closed = s.closed := rfl
@[simp] theorem State.reject_ports (port : Port) (r : Request) (code : Status) :
    (s.reject port r code).ports = s.ports.set s.cur (port.respond r code) := rfl
@[simp] theorem State.reject_slot (port : Port) (r : Request) (code : Status) :
    (s.reject port r code).slot = s.slot := rfl
@[simp] theorem State.reject_phase (port : Port) (r : Request) (code : Status) :
    (s.reject port r code).phase = s.phase := rfl
@[simp] theorem State.reject_lock (port : Port) (r : Request) (code : Status) :
    (s.reject port r code).lock = s.lock := rfl
@[simp] theorem State.reject_holdUntil (port : Port) (r : Request) (code : Status) :
    (s.reject port r code).holdUntil = s.holdUntil := rfl
@[simp] theorem State.reject_busPending (port : Port) (r : Request) (code : Status) :
    (s.reject port r code).busPending = s.busPending := rfl
@[simp] theorem State.reject_busData (port : Port) (r : Request) (code : Status) :
    (s.reject port r code).busData = s.busData := rfl
@[simp] theorem State.reject_nowUs (port : Port) (r : Request) (code : Status) :
    (s.reject port r code).nowUs = s.nowUs := rfl
@[simp] theorem State.reject_busTrace (port : Port) (r : Request) (code : Status) :
    (s.reject port r code).busTrace = s.busTrace := rfl
@[simp] theorem State.reject_cur (port : Port) (r : Request) (code : Status) :
    (s.reject port r code).cur = s.cur := rfl
@[simp] theorem State.reject_agenda (port : Port) (r : Request) (code : Status) :
    (s.reject port r code).agenda = s.agenda := rfl
@[simp] theorem State.reject_turn (port : Port) (r : Request) (code : Status) :
    (s.reject port r code).turn = s.turn := rfl

@[simp] theorem State.start_pinMap (port : Port) (r : Request) (op : BitVec 4) (units : List TimedWrite) :
    (s.start port r op units).pinMap = s.pinMap := rfl
@[simp] theorem State.start_busChannel (port : Port) (r : Request) (op : BitVec 4) (units : List TimedWrite) :
    (s.start port r op units).busChannel = s.busChannel := rfl
@[simp] theorem State.start_busAddr (port : Port) (r : Request) (op : BitVec 4) (units : List TimedWrite) :
    (s.start port r op units).busAddr = s.busAddr := rfl
@[simp] theorem State.start_cfgErr (port : Port) (r : Request) (op : BitVec 4) (units : List TimedWrite) :
    (s.start port r op units).cfgErr = s.cfgErr := rfl
@[simp] theorem State.start_initStarted (port : Port) (r : Request) (op : BitVec 4) (units : List TimedWrite) :
    (s.start port r op units).initStarted = s.initStarted := rfl
@[simp] theorem State.start_initDone (port : Port) (r : Request) (op : BitVec 4) (units : List TimedWrite) :
    (s.start port r op units).initDone = s.initDone := rfl
@[simp] theorem State.start_closed (port : Port) (r : Request) (op : BitVec 4) (units : List TimedWrite) :
    (s.start port r op units).closed = s.closed := rfl
@[simp] theorem State.start_ports (port : Port) (r : Request) (op : BitVec 4) (units : List TimedWrite) :
    (s.start port r op units).ports = s.ports.set s.cur { port with op := op, units := units, idx := 0, state := .run, req := r } := rfl
@[simp] theorem State.start_slot (port : Port) (r : Request) (op : BitVec 4) (units : List TimedWrite) :
    (s.start port r op units).slot = s.slot := rfl
@[simp] theorem State.start_phase (port : Port) (r : Request) (op : BitVec 4) (units : List TimedWrite) :
    (s.start port r op units).phase = s.phase := rfl
@[simp] theorem State.start_lock (port : Port) (r : Request) (op : BitVec 4) (units : List TimedWrite) :
    (s.start port r op units).lock = s.lock := rfl
@[simp] theorem State.start_holdUntil (port : Port) (r : Request) (op : BitVec 4) (units : List TimedWrite) :
    (s.start port r op units).holdUntil = s.holdUntil := rfl
@[simp] theorem State.start_busPending (port : Port) (r : Request) (op : BitVec 4) (units : List TimedWrite) :
    (s.start port r op units).busPending = s.busPending := rfl
@[simp] theorem State.start_busData (port : Port) (r : Request) (op : BitVec 4) (units : List TimedWrite) :
    (s.start port r op units).busData = s.busData := rfl
@[simp] theorem State.start_nowUs (port : Port) (r : Request) (op : BitVec 4) (units : List TimedWrite) :
    (s.start port r op units).nowUs = s.nowUs := rfl
@[simp] theorem State.start_busTrace (port : Port) (r : Request) (op : BitVec 4) (units : List TimedWrite) :
    (s.start port r op units).busTrace = s.busTrace := rfl
@[simp] theorem State.start_cur (port : Port) (r : Request) (op : BitVec 4) (units : List TimedWrite) :
    (s.start port r op units).cur = s.cur := rfl
@[simp] theorem State.start_agenda (port : Port) (r : Request) (op : BitVec 4) (units : List TimedWrite) :
    (s.start port r op units).agenda = s.agenda := rfl
@[simp] theorem State.start_turn (port : Port) (r : Request) (op : BitVec 4) (units : List TimedWrite) :
    (s.start port r op units).turn = s.turn := rfl

@[simp] theorem State.present_pinMap (p : Nat) (port : Port) (rest : List Record) :
    (s.present p port rest).pinMap = s.pinMap := rfl
@[simp] theorem State.present_busChannel (p : Nat) (port : Port) (rest : List Record) :
    (s.present p port rest).busChannel = s.busChannel := rfl
@[simp] theorem State.present_busAddr (p : Nat) (port : Port) (rest : List Record) :
    (s.present p port rest).busAddr = s.busAddr := rfl
@[simp] theorem State.present_cfgErr (p : Nat) (port : Port) (rest : List Record) :
    (s.present p port rest).cfgErr = s.cfgErr := rfl
@[simp] theorem State.present_initStarted (p : Nat) (port : Port) (rest : List Record) :
    (s.present p port rest).initStarted = s.initStarted := rfl
@[simp] theorem State.present_initDone (p : Nat) (port : Port) (rest : List Record) :
    (s.present p port rest).initDone = s.initDone := rfl
@[simp] theorem State.present_closed (p : Nat) (port : Port) (rest : List Record) :
    (s.present p port rest).closed = s.closed := rfl
@[simp] theorem State.present_ports (p : Nat) (port : Port) (rest : List Record) :
    (s.present p port rest).ports = s.ports.set p { port with input := rest } := rfl
@[simp] theorem State.present_slot (p : Nat) (port : Port) (rest : List Record) :
    (s.present p port rest).slot = s.slot := rfl
@[simp] theorem State.present_phase (p : Nat) (port : Port) (rest : List Record) :
    (s.present p port rest).phase = s.phase := rfl
@[simp] theorem State.present_lock (p : Nat) (port : Port) (rest : List Record) :
    (s.present p port rest).lock = s.lock := rfl
@[simp] theorem State.present_holdUntil (p : Nat) (port : Port) (rest : List Record) :
    (s.present p port rest).holdUntil = s.holdUntil := rfl
@[simp] theorem State.present_busPending (p : Nat) (port : Port) (rest : List Record) :
    (s.present p port rest).busPending = s.busPending := rfl
@[simp] theorem State.present_busData (p : Nat) (port : Port) (rest : List Record) :
    (s.present p port rest).busData = s.busData := rfl
@[simp] theorem State.present_nowUs (p : Nat) (port : Port) (rest : List Record) :
    (s.present p port rest).nowUs = s.nowUs := rfl
@[simp] theorem State.present_busTrace (p : Nat) (port : Port) (rest : List Record) :
    (s.present p port rest).busTrace = s.busTrace := rfl
@[simp] theorem State.present_cur (p : Nat) (port : Port) (rest : List Record) :
    (s.present p port rest).cur = p := rfl
@[simp] theorem State.present_agenda (p : Nat) (port : Port) (rest : List Record) :
    (s.present p port rest).agenda = s.agenda := rfl
@[simp] theorem State.present_turn (p : Nat) (port : Port) (rest : List Record) :
    (s.present p port rest).turn = s.turn := rfl

@[simp] theorem State.complete_pinMap (p : Nat) (port : Port) :
    (s.complete p port).pinMap = s.pinMap := rfl
@[simp] theorem State.complete_busChannel (p : Nat) (port : Port) :
    (s.complete p port).busChannel = s.busChannel := rfl
@[simp] theorem State.complete_busAddr (p : Nat) (port : Port) :
    (s.complete p port).busAddr = s.busAddr := rfl
@[simp] theorem State.complete_cfgErr (p : Nat) (port : Port) :
    (s.complete p port).cfgErr = s.cfgErr := rfl
@[simp] theorem State.complete_initStarted (p : Nat) (port : Port) :
    (s.complete p port).initStarted = s.initStarted := rfl
@[simp] theorem State.complete_initDone (p : Nat) (port : Port) :
    (s.complete p port).initDone = initDoneAfter s.initDone port.op := rfl
@[simp] theorem State.complete_closed (p : Nat) (port : Port) :
    (s.complete p port).closed = s.closed := rfl
@[simp] theorem State.complete_ports (p : Nat) (port : Port) :
    (s.complete p port).ports = s.ports.set p (port.finish .ok) := rfl
@[simp] theorem State.complete_slot (p : Nat) (port : Port) :
    (s.complete p port).slot = s.slot := rfl
@[simp] theorem State.complete_phase (p : Nat) (port : Port) :
    (s.complete p port).phase = s.phase := rfl
@[simp] theorem State.complete_lock (p : Nat) (port : Port) :
    (s.complete p port).lock = s.lock := rfl
@[simp] theorem State.complete_holdUntil (p : Nat) (port : Port) :
    (s.complete p port).holdUntil = s.holdUntil := rfl
@[simp] theorem State.complete_busPending (p : Nat) (port : Port) :
    (s.complete p port).busPending = s.busPending := rfl
@[simp] theorem State.complete_busData (p : Nat) (port : Port) :
    (s.complete p port).busData = s.busData := rfl
@[simp] theorem State.complete_nowUs (p : Nat) (port : Port) :
    (s.complete p port).nowUs = s.nowUs := rfl
@[simp] theorem State.complete_busTrace (p : Nat) (port : Port) :
    (s.complete p port).busTrace = s.busTrace := rfl
@[simp] theorem State.complete_cur (p : Nat) (port : Port) :
    (s.complete p port).cur = s.cur := rfl
@[simp] theorem State.complete_agenda (p : Nat) (port : Port) :
    (s.complete p port).agenda = s.agenda := rfl
@[simp] theorem State.complete_turn (p : Nat) (port : Port) :
    (s.complete p port).turn = s.turn := rfl

@[simp] theorem State.takeWrite_pinMap (p : Nat) (port : Port) (tw : TimedWrite) :
    (s.takeWrite p port tw).pinMap = s.pinMap := rfl
@[simp] theorem State.takeWrite_busChannel (p : Nat) (port : Port) (tw : TimedWrite) :
    (s.takeWrite p port tw).busChannel = s.busChannel := rfl
@[simp] theorem State.takeWrite_busAddr (p : Nat) (port : Port) (tw : TimedWrite) :
    (s.takeWrite p port tw).busAddr = s.busAddr := rfl
@[simp] theorem State.takeWrite_cfgErr (p : Nat) (port : Port) (tw : TimedWrite) :
    (s.takeWrite p port tw).cfgErr = s.cfgErr := rfl
@[simp] theorem State.takeWrite_initStarted (p : Nat) (port : Port) (tw : TimedWrite) :
    (s.takeWrite p port tw).initStarted = s.initStarted := rfl
@[simp] theorem State.takeWrite_initDone (p : Nat) (port : Port) (tw : TimedWrite) :
    (s.takeWrite p port tw).initDone = s.initDone := rfl
@[simp] theorem State.takeWrite_closed (p : Nat) (port : Port) (tw : TimedWrite) :
    (s.takeWrite p port tw).closed = s.closed := rfl
@[simp] theorem State.takeWrite_ports (p : Nat) (port : Port) (tw : TimedWrite) :
    (s.takeWrite p port tw).ports = s.ports.set p { port with idx := port.idx + 1 } := rfl
@[simp] theorem State.takeWrite_slot (p : Nat) (port : Port) (tw : TimedWrite) :
    (s.takeWrite p port tw).slot = { valid := true, payload := tw.payload, hold := tw.hold, pair := tw.pair, owner := p } := rfl
@[simp] theorem State.takeWrite_phase (p : Nat) (port : Port) (tw : TimedWrite) :
    (s.takeWrite p port tw).phase = .wrHi := rfl
@[simp] theorem State.takeWrite_lock (p : Nat) (port : Port) (tw : TimedWrite) :
    (s.takeWrite p port tw).lock = lockAfter s.lock p tw.pair := rfl
@[simp] theorem State.takeWrite_holdUntil (p : Nat) (port : Port) (tw : TimedWrite) :
    (s.takeWrite p port tw).holdUntil = s.holdUntil := rfl
@[simp] theorem State.takeWrite_busPending (p : Nat) (port : Port) (tw : TimedWrite) :
    (s.takeWrite p port tw).busPending = true := rfl
@[simp] theorem State.takeWrite_busData (p : Nat) (port : Port) (tw : TimedWrite) :
    (s.takeWrite p port tw).busData = setBit tw.payload (ePos s.pinMap) := rfl
@[simp] theorem State.takeWrite_nowUs (p : Nat) (port : Port) (tw : TimedWrite) :
    (s.takeWrite p port tw).nowUs = s.nowUs := rfl
@[simp] theorem State.takeWrite_busTrace (p : Nat) (port : Port) (tw : TimedWrite) :
    (s.takeWrite p port tw).busTrace = s.busTrace := rfl
@[simp] theorem State.takeWrite_cur (p : Nat) (port : Port) (tw : TimedWrite) :
    (s.takeWrite p port tw).cur = s.cur := rfl
@[simp] theorem State.takeWrite_agenda (p : Nat) (port : Port) (tw : TimedWrite) :
    (s.takeWrite p port tw).agenda = s.agenda := rfl
@[simp] theorem State.takeWrite_turn (p : Nat) (port : Port) (tw : TimedWrite) :
    (s.takeWrite p port tw).turn = s.turn := rfl

/-! Using up a move changes only the scheduling fields. -/

@[simp] theorem State.advance_pinMap : s.advance.pinMap = s.pinMap := by unfold State.advance; split <;> rfl
@[simp] theorem State.advance_busChannel : s.advance.busChannel = s.busChannel := by unfold State.advance; split <;> rfl
@[simp] theorem State.advance_busAddr : s.advance.busAddr = s.busAddr := by unfold State.advance; split <;> rfl
@[simp] theorem State.advance_cfgErr : s.advance.cfgErr = s.cfgErr := by unfold State.advance; split <;> rfl
@[simp] theorem State.advance_initStarted : s.advance.initStarted = s.initStarted := by unfold State.advance; split <;> rfl
@[simp] theorem State.advance_initDone : s.advance.initDone = s.initDone := by unfold State.advance; split <;> rfl
@[simp] theorem State.advance_closed : s.advance.closed = s.closed := by unfold State.advance; split <;> rfl
@[simp] theorem State.advance_ports : s.advance.ports = s.ports := by unfold State.advance; split <;> rfl
@[simp] theorem State.advance_slot : s.advance.slot = s.slot := by unfold State.advance; split <;> rfl
@[simp] theorem State.advance_phase : s.advance.phase = s.phase := by unfold State.advance; split <;> rfl
@[simp] theorem State.advance_lock : s.advance.lock = s.lock := by unfold State.advance; split <;> rfl
@[simp] theorem State.advance_holdUntil : s.advance.holdUntil = s.holdUntil := by unfold State.advance; split <;> rfl
@[simp] theorem State.advance_busPending : s.advance.busPending = s.busPending := by unfold State.advance; split <;> rfl
@[simp] theorem State.advance_busData : s.advance.busData = s.busData := by unfold State.advance; split <;> rfl
@[simp] theorem State.advance_nowUs : s.advance.nowUs = s.nowUs := by unfold State.advance; split <;> rfl
@[simp] theorem State.advance_busTrace : s.advance.busTrace = s.busTrace := by unfold State.advance; split <;> rfl
@[simp] theorem State.advance_cur : s.advance.cur = s.cur := by unfold State.advance; split <;> rfl

variable (port : Port)

@[simp] theorem Port.respond_state (r : Request) (st : Status) :
    (port.respond r st).state = port.state := rfl
@[simp] theorem Port.respond_op (r : Request) (st : Status) :
    (port.respond r st).op = port.op := rfl
@[simp] theorem Port.respond_units (r : Request) (st : Status) :
    (port.respond r st).units = port.units := rfl
@[simp] theorem Port.respond_idx (r : Request) (st : Status) :
    (port.respond r st).idx = port.idx := rfl
@[simp] theorem Port.respond_req (r : Request) (st : Status) :
    (port.respond r st).req = port.req := rfl
@[simp] theorem Port.respond_input (r : Request) (st : Status) :
    (port.respond r st).input = port.input := rfl
@[simp] theorem Port.respond_responses (r : Request) (st : Status) :
    (port.respond r st).responses = port.responses ++ [(r, st)] := rfl

@[simp] theorem Port.clear_state :
    (port.clear).state = .idle := rfl
@[simp] theorem Port.clear_op :
    (port.clear).op = port.op := rfl
@[simp] theorem Port.clear_units :
    (port.clear).units = [] := rfl
@[simp] theorem Port.clear_idx :
    (port.clear).idx = 0 := rfl
@[simp] theorem Port.clear_req :
    (port.clear).req = port.req := rfl
@[simp] theorem Port.clear_input :
    (port.clear).input = port.input := rfl
@[simp] theorem Port.clear_responses :
    (port.clear).responses = port.responses := rfl

@[simp] theorem Port.finish_state (st : Status) :
    (port.finish st).state = .idle := rfl
@[simp] theorem Port.finish_op (st : Status) :
    (port.finish st).op = port.op := rfl
@[simp] theorem Port.finish_units (st : Status) :
    (port.finish st).units = [] := rfl
@[simp] theorem Port.finish_idx (st : Status) :
    (port.finish st).idx = 0 := rfl
@[simp] theorem Port.finish_req (st : Status) :
    (port.finish st).req = port.req := rfl
@[simp] theorem Port.finish_input (st : Status) :
    (port.finish st).input = port.input := rfl
@[simp] theorem Port.finish_responses (st : Status) :
    (port.finish st).responses = port.responses ++ [(port.req, st)] := rfl

@[simp] theorem Port.closeDone_state :
    (port.closeDone).state = .idle := rfl
@[simp] theorem Port.closeDone_op :
    (port.closeDone).op = port.op := rfl
@[simp] theorem Port.closeDone_units :
    (port.closeDone).units = port.units := rfl
@[simp] theorem Port.closeDone_idx :
    (port.closeDone).idx = port.idx := rfl
@[simp] theorem Port.closeDone_req :
    (port.closeDone).req = port.req := rfl
@[simp] theorem Port.closeDone_input :
    (port.closeDone).input = port.input := rfl
@[simp] theorem Port.closeDone_responses :
    (port.closeDone).responses = port.responses ++ [(port.req, .ok)] := rfl

@[simp] theorem Port.resetRunning_state :
    (port.resetRunning).state = .idle := rfl
@[simp] theorem Port.resetRunning_op :
    (port.resetRunning).op = 0#4 := rfl
@[simp] theorem Port.resetRunning_units :
    (port.resetRunning).units = [] := rfl
@[simp] theorem Port.resetRunning_idx :
    (port.resetRunning).idx = 0 := rfl
@[simp] theorem Port.resetRunning_req :
    (port.resetRunning).req = .illegal 0#16 := rfl
@[simp] theorem Port.resetRunning_input :
    (port.resetRunning).input = port.input := rfl
@[simp] theorem Port.resetRunning_responses :
    (port.resetRunning).responses = port.responses := rfl

end Sys2Proof.Machine
end

