-- ==== Sys2Proof/Laws/Ops.lean ====
section
/-!
SUPPORT. What each shared operation can do, said once: admission and the six meanings, the guards and effects of the
dispatcher's steps, CLOSE taking effect, and the step itself. Later proofs cite these and unfold nothing.
-/

namespace Sys2Proof.Machine

variable {s t : State}

/-! ## Admission -/

/-- Admission on an idle port always answers a next state: the two block-wide causes first, then the request's own
decision (R170, R206). -/
theorem admission_of_idle {port : Port} {r : Request} {act : Port → State}
    (hp : s.ports[s.cur]? = some port) (hi : port.state = .idle) :
    s.admission r act = .next (if s.cfgErr = true then s.reject port r .errCfg
      else if s.closed = true then s.reject port r .errClosed else act port) := by
  unfold State.admission
  rw [hp]
  simp only [hi, ne_eq, not_true_eq_false, if_false]
  split_ifs <;> rfl

/-- Where admission answers a next state, the port was idle, and the request was rejected or went on to its own
decision. -/
theorem admission_next {r : Request} {act : Port → State} (h : s.admission r act = .next t) :
    ∃ port : Port, s.ports[s.cur]? = some port ∧ port.state = .idle ∧
      (t = s.reject port r .errCfg ∧ s.cfgErr = true ∨
        t = s.reject port r .errClosed ∧ s.cfgErr = false ∧ s.closed = true ∨
        t = act port ∧ s.cfgErr = false ∧ s.closed = false) := by
  have h0 := h
  unfold State.admission at h
  split at h
  · cases h
  · rename_i port hp
    split at h
    · cases h
    · rename_i hb
      have hi : port.state = .idle := by simpa using hb
      refine ⟨port, hp, hi, ?_⟩
      rw [admission_of_idle hp hi] at h0
      cases hc : s.cfgErr <;> cases hd : s.closed <;> simp_all

/-- `start`'s guard and effect for the four requests that need `INIT_DONE`, and INIT's and CLOSE's own: where `exec`
answers a next state, the request was rejected and only its response written, or it was admitted. -/
theorem exec_next {i : Instr} (h : exec i s = .next t) :
    ∃ port : Port, s.ports[s.cur]? = some port ∧ port.state = .idle ∧
      ((∃ code, t = s.reject port (.legal i) code) ∨
        (s.cfgErr = false ∧ s.closed = false ∧
          (i = .init ∧ s.initStarted = false ∧
              t = s.setInitStarted.start port (.legal .init) (opcode .init) (expand s.pinMap .init) ∨
            i ≠ .init ∧ i ≠ .close ∧ s.initDone = true ∧
              t = s.start port (.legal i) (opcode i) (expand s.pinMap i) ∨
            i = .close ∧
              t = s.setPort s.cur { port with op := opcode .close, state := .closeWait, req := .legal .close }))) := by
  cases i with
  | init =>
    obtain ⟨port, hp, hi, h | h | ⟨rfl, hc, hd⟩⟩ := admission_next h
    · exact ⟨port, hp, hi, .inl ⟨_, h.1⟩⟩
    · exact ⟨port, hp, hi, .inl ⟨_, h.1⟩⟩
    · refine ⟨port, hp, hi, ?_⟩
      cases hs : s.initStarted <;> simp [hc, hd]
  | close =>
    obtain ⟨port, hp, hi, h | h | ⟨rfl, hc, hd⟩⟩ := admission_next h
    · exact ⟨port, hp, hi, .inl ⟨_, h.1⟩⟩
    · exact ⟨port, hp, hi, .inl ⟨_, h.1⟩⟩
    · exact ⟨port, hp, hi, .inr ⟨hc, hd, .inr (.inr ⟨rfl, rfl⟩)⟩⟩
  | sendCmd | sendData | printRow1 | printRow2 =>
    obtain ⟨port, hp, hi, h | h | ⟨rfl, hc, hd⟩⟩ := admission_next h
    · exact ⟨port, hp, hi, .inl ⟨_, h.1⟩⟩
    · exact ⟨port, hp, hi, .inl ⟨_, h.1⟩⟩
    · refine ⟨port, hp, hi, ?_⟩
      cases hs : s.initDone <;> simp [hc, hd]

/-- ADMIT's guard spelled out (R170, R179, R80). -/
theorem canAdmit_iff {p : Nat} :
    s.canAdmit p = true ↔ ∃ (port : Port) (r : Record) (rest : List Record), s.ports[p]? = some port ∧
      port.state = .idle ∧ port.input = r :: rest ∧ r.whole = true := by
  unfold State.canAdmit
  split
  · simp_all
  · rename_i port _
    cases hin : port.input <;> simp_all

/-- ADMIT, where its guard holds and it answers a next state: a legal request is run, an illegal header rejected. -/
theorem admit_next {p : Nat} (hg : s.canAdmit p = true) (h : s.admitReq p = .next t) :
    ∃ (port : Port) (r : Record) (rest : List Record), s.ports[p]? = some port ∧ port.state = .idle ∧
      port.input = r :: rest ∧ r.whole = true ∧
      ((∃ i, r.request = some i ∧ exec i (s.present p port rest) = .next t) ∨
        (r.request = none ∧ (s.present p port rest).admitIllegal r.header = .next t)) := by
  obtain ⟨port, r, rest, hp, hi, hin, hw⟩ := canAdmit_iff.1 hg
  unfold State.admitReq at h
  simp only [hp, hin] at h
  refine ⟨port, r, rest, hp, hi, hin, hw, ?_⟩
  split at h
  · exact .inl ⟨_, ‹_›, h⟩
  · exact .inr ⟨‹_›, h⟩

/-! ## The dispatcher -/

/-- Eligibility spelled out (R141). -/
theorem eligible_iff {p : Nat} :
    s.eligible p = true ↔ ∃ port : Port, s.ports[p]? = some port ∧ port.state = .run ∧
      port.idx < port.units.length ∧ (s.lock = none ∨ s.lock = some p) ∧ s.closed = false := by
  unfold State.eligible State.eligiblePort
  split <;> simp_all [and_assoc]

/-- ACCEPT's guard spelled out (R142). -/
theorem canAccept_iff {p : Nat} :
    s.canAccept p = true ↔ s.phase = .idle ∧ s.busPending = false ∧ s.eligible p = true := by
  simp [State.canAccept, and_assoc]

/-- ACCEPT where its guard holds: the next TimedWrite is taken, and the request completes with its last (R142, R144). -/
theorem accept_of_canAccept {p : Nat} (hg : s.canAccept p = true) :
    ∃ (port : Port) (tw : TimedWrite), s.ports[p]? = some port ∧ port.state = .run ∧
      port.units[port.idx]? = some tw ∧ s.phase = .idle ∧ s.busPending = false ∧
      (s.lock = none ∨ s.lock = some p) ∧ s.closed = false ∧
      s.accept p = if port.idx + 1 = port.units.length then
          (s.takeWrite p port tw).complete p { port with idx := port.idx + 1 }
        else s.takeWrite p port tw := by
  obtain ⟨hph, hb, he⟩ := canAccept_iff.1 hg
  obtain ⟨port, hp, hr, hlt, hl, hc⟩ := eligible_iff.1 he
  refine ⟨port, port.units[port.idx], hp, hr, List.getElem?_eq_getElem hlt, hph, hb, hl, hc, ?_⟩
  unfold State.accept
  rw [hp]
  simp only [List.getElem?_eq_getElem hlt]

/-- What ACCEPT does to the port, the lock and the slot, its last TimedWrite or not (R142, R144). -/
theorem accept_effect {p : Nat} (hg : s.canAccept p = true) :
    ∃ (port port' : Port) (tw : TimedWrite), s.ports[p]? = some port ∧ port.state = .run ∧
      port.units[port.idx]? = some tw ∧ (s.accept p).ports = s.ports.set p port' ∧
      (s.accept p).lock = lockAfter s.lock p tw.pair ∧
      (s.accept p).slot = ⟨true, tw.payload, tw.hold, tw.pair, p⟩ ∧ (s.accept p).phase = .wrHi ∧
      (port' = port.finish .ok ∧ port.idx + 1 = port.units.length ∨
        port' = { port with idx := port.idx + 1 } ∧ port.idx + 1 ≠ port.units.length) := by
  obtain ⟨port, tw, hp, hr, hu, -, -, -, -, he⟩ := accept_of_canAccept hg
  by_cases hlast : port.idx + 1 = port.units.length
  · rw [if_pos hlast] at he
    refine ⟨port, port.finish .ok, tw, hp, hr, hu, ?_, ?_, ?_, ?_, .inl ⟨rfl, hlast⟩⟩ <;> rw [he] <;> simp
    rfl
  · rw [if_neg hlast] at he
    refine ⟨port, { port with idx := port.idx + 1 }, tw, hp, hr, hu, ?_, ?_, ?_, ?_, .inr ⟨rfl, hlast⟩⟩ <;>
      rw [he] <;> simp

/-- What ACCEPT leaves alone (R142). -/
theorem accept_frame {p : Nat} (hg : s.canAccept p = true) :
    s.SameConfig (s.accept p) ∧ (s.accept p).initStarted = s.initStarted ∧ (s.accept p).closed = s.closed ∧
      (s.initDone = true → (s.accept p).initDone = true) ∧ (s.accept p).holdUntil = s.holdUntil ∧
      (s.accept p).nowUs = s.nowUs ∧ (s.accept p).busTrace = s.busTrace ∧ (s.accept p).agenda = s.agenda ∧
      (s.accept p).ports.length = s.ports.length := by
  obtain ⟨port, tw, -, -, -, -, -, -, -, he⟩ := accept_of_canAccept hg
  rw [he]
  split <;> simp [State.SameConfig]
  intro h
  simp [initDoneAfter, h]

/-- END_HI answers a next state only with a TimedWrite in the slot (R145, R45). -/
theorem endHi_next (h : s.endHi = .next t) :
    s.slot.valid = true ∧ t = { s with phase := .wrLo }.busWrite (clearBit s.slot.payload (ePos s.pinMap)) := by
  unfold State.endHi at h
  split at h <;> cases h
  exact ⟨‹_›, rfl⟩

/-- END_LO answers a next state only with a TimedWrite in the slot (R146, R45). -/
theorem endLo_next (h : s.endLo = .next t) :
    s.slot.valid = true ∧ t = { s with holdUntil := s.nowUs + s.slot.hold.toNat, phase := .hold } := by
  unfold State.endLo at h
  split at h <;> cases h
  exact ⟨‹_›, rfl⟩

/-- CLOSE_EFFECT's guard spelled out (R176). -/
theorem canClose_iff {p : Nat} :
    s.canClose p = true ↔ ∃ port : Port, s.ports[p]? = some port ∧ port.state = .closeWait ∧
      s.lock = none ∧ s.closed = false := by
  unfold State.canClose
  split <;> simp_all [and_assoc]

@[simp] theorem closePorts_length (p : Nat) (ports : List Port) : (closePorts p ports).length = ports.length := by
  induction ports generalizing p with
  | nil => cases p <;> rfl
  | cons port rest ih => cases p <;> simp [closePorts, ih]

/-- CLOSE taking effect, port by port (R176). -/
theorem closePorts_getElem? (p q : Nat) (ports : List Port) :
    (closePorts p ports)[q]? = (ports[q]?).map fun port => if q = p then port.closeDone else port.cutOff := by
  induction ports generalizing p q with
  | nil => cases p <;> simp [closePorts]
  | cons port rest ih =>
    cases p with
    | zero => cases q <;> simp [closePorts]
    | succ p => cases q <;> simp [closePorts, ih]

/-- A port with no request outstanding is not touched by another's CLOSE. -/
theorem cutOff_of_idle {port : Port} (h : port.state = .idle) : port.cutOff = port := by
  simp [Port.cutOff, h]

/-- An outstanding request is ended by another's CLOSE. -/
theorem cutOff_of_busy {port : Port} (h : port.state ≠ .idle) : port.cutOff = port.finish .errClosed := by
  unfold Port.cutOff
  cases hs : port.state <;> simp_all

/-- Every port is idle after a CLOSE. -/
@[simp] theorem cutOff_state (port : Port) : port.cutOff.state = .idle := by
  by_cases h : port.state = .idle
  · rw [cutOff_of_idle h, h]
  · rw [cutOff_of_busy h]; rfl

/-! ## The step -/

/-- A step that answers a next state took its move, or passed it over (log 8). -/
theorem step_next (h : step s = .next t) :
    (s.advance.enabled s.nextMove = false ∧ t = s.advance) ∨
      (s.advance.enabled s.nextMove = true ∧ s.advance.perform s.nextMove = .next t) := by
  unfold step State.tryMove at h
  split at h
  · exact .inr ⟨‹_›, h⟩
  · exact .inl ⟨Bool.eq_false_iff.2 ‹_›, by cases h; rfl⟩

theorem step_of_enabled (h : s.advance.enabled s.nextMove = true) : step s = s.advance.perform s.nextMove := by
  simp [step, State.tryMove, h]

theorem step_of_disabled (h : s.advance.enabled s.nextMove = false) : step s = .next s.advance := by
  simp [step, State.tryMove, h]

/-! ## Ports -/

/-- Reading a port that was just written, and another one. -/
theorem setPort_getElem?_self {p : Nat} {port port' : Port} (h : s.ports[p]? = some port) :
    (s.setPort p port').ports[p]? = some port' := by
  obtain ⟨hlt, -⟩ := List.getElem?_eq_some_iff.1 h
  simp [hlt]

theorem setPort_getElem?_ne {p q : Nat} {port' : Port} (h : q ≠ p) :
    (s.setPort p port').ports[q]? = s.ports[q]? := by
  simp [h.symm]

/-- Writing port `p` leaves every other port as it is. -/
theorem samePortsBut_setPort {u : State} {p : Nat} {port : Port} (h : u.ports = s.ports.set p port) :
    s.SamePortsBut p u := by
  refine ⟨by simp [h], fun q hq => ?_⟩
  rw [h, List.getElem?_set_ne (fun e => hq e.symm)]

/-- What the host issues reaches one stream and nothing else (R43, R217). -/
theorem issue_frame (p : Nat) (r : Record) :
    s.SameConfig (s.issue p r) ∧ s.SameFlags (s.issue p r) ∧ s.SameDispatcher (s.issue p r) ∧
      s.SameBus (s.issue p r) ∧ s.SameEnvironment (s.issue p r) ∧ s.SamePortsBut p (s.issue p r) ∧
      ∀ port : Port, s.ports[p]? = some port →
        (s.issue p r).ports[p]? = some { port with input := port.input ++ [r] } := by
  unfold State.issue
  split
  · rename_i h
    simp [State.SameConfig, State.SameFlags, State.SameDispatcher, State.SameBus, State.SameEnvironment,
      State.SamePortsBut, h]
  · rename_i port hp
    refine ⟨by simp [State.SameConfig], by simp [State.SameFlags], by simp [State.SameDispatcher],
      by simp [State.SameBus], by simp [State.SameEnvironment], samePortsBut_setPort rfl, fun port' hp' => ?_⟩
    rw [hp] at hp'
    cases hp'
    exact setPort_getElem?_self hp

/-! ## Runs -/

/-- One more step of a run. -/
theorem run_succ (k : Nat) (h : step s = .next t) :
    Host.Core.run core (k + 1) s = Host.Core.run core k t := by
  have : core.step s = .next t := h
  simp only [Host.Core.run, this]

/-- A run in two parts. -/
theorem run_add (M : Host.Core) (a b : Nat) (u v : M.State) (h : M.run a u = .next v) :
    M.run (a + b) u = M.run b v := by
  induction a generalizing u with
  | zero =>
    simp only [Host.Core.run, Host.Outcome.next.injEq] at h
    simp [h]
  | succ a ih =>
    rw [Nat.add_right_comm]
    simp only [Host.Core.run] at h ⊢
    cases hs : M.step u with
    | next w => rw [hs] at h; exact ih w h
    | fault r => simp [hs] at h
    | refused r => simp [hs] at h

end Sys2Proof.Machine
end

