-- ==== Sys2Proof/Laws/PerInstr.lean ====
section
/-!
SUPPORT. Statements made once per request, about its syntax: which header its encoding carries (R80, R81, R85).
-/

namespace Sys2Proof.Laws

/-- The fields of a header put together from an opcode and an operand byte (R80). -/
theorem fields_of_parts (op : BitVec 4) (imm : Byte) :
    headerOp (op ++ 0#4 ++ imm) = op ∧ headerRsv (op ++ 0#4 ++ imm) = 0#4 ∧ headerImm (op ++ 0#4 ++ imm) = imm := by
  refine ⟨?_, ?_, ?_⟩ <;> apply BitVec.eq_of_getLsbD_eq <;> intro i h
  · simp only [headerOp, BitVec.getLsbD_extractLsb', h, BitVec.getLsbD_append]
    simp [show ¬12 + i < 8 by omega, show ¬12 + i - 8 < 4 by omega, show 12 + i - 8 - 4 = i by omega]
  · simp only [headerRsv, BitVec.getLsbD_extractLsb', h, BitVec.getLsbD_append]
    simp [show ¬8 + i < 8 by omega]
    intro
    omega
  · simp only [headerImm, BitVec.getLsbD_extractLsb', h, BitVec.getLsbD_append]
    simp [h]

/-- A header sent as bytes and read back, high byte first (R80, R66). -/
theorem headerOf_headerBytes (h : Header) : headerOf (h.extractLsb' 8 8) (h.extractLsb' 0 8) = h := by
  apply BitVec.eq_of_getLsbD_eq
  intro i hi
  simp only [headerOf, BitVec.getLsbD_append, BitVec.getLsbD_extractLsb']
  by_cases h8 : i < 8
  · simp [h8]
  · simp [h8, show i - 8 < 8 by omega, show 8 + (i - 8) = i by omega]

/-- A request's header has its opcode, `RSV = 0` and its operand byte, and its bytes are the two header bytes and the
text: 2 bytes in formats H0 and HB, `2 + L` in format HT, `L` being what the header says (R80, R81). -/
def HeaderFields.Statement (i : Instr) : Prop :=
  headerOp (encodeHeader i) = opcode i ∧ headerRsv (encodeHeader i) = 0#4 ∧
    headerImm (encodeHeader i) = immediate i ∧ (encode i).length = 2 + (requestText i).length ∧
    (wellFormed i = true → textLength (encodeHeader i) = (requestText i).length)

/-- Both requests with a text: the operand byte holds the length of a text that can be encoded (R82). -/
theorem length_of_operand {text : List Byte} (h : decide (text.length ≤ textMax) = true) :
    (BitVec.ofNat 8 text.length).toNat = text.length := by
  have : text.length ≤ 255 := by simpa using h
  simp
  omega

theorem HeaderFields.init : HeaderFields.Statement .init := by
  obtain ⟨h1, h2, h3⟩ := fields_of_parts 1#4 0#8
  exact ⟨h1, h2, h3, rfl, fun _ => by decide⟩

theorem HeaderFields.sendCmd (v : Byte) : HeaderFields.Statement (.sendCmd v) := by
  obtain ⟨h1, h2, h3⟩ := fields_of_parts 2#4 v
  refine ⟨h1, h2, h3, rfl, fun _ => ?_⟩
  simp only [textLength, encodeHeader, opcode, immediate, h1]
  rfl

theorem HeaderFields.sendData (v : Byte) : HeaderFields.Statement (.sendData v) := by
  obtain ⟨h1, h2, h3⟩ := fields_of_parts 3#4 v
  refine ⟨h1, h2, h3, rfl, fun _ => ?_⟩
  simp only [textLength, encodeHeader, opcode, immediate, h1]
  rfl

theorem HeaderFields.printRow1 (text : List Byte) : HeaderFields.Statement (.printRow1 text) := by
  obtain ⟨h1, h2, h3⟩ := fields_of_parts 4#4 (BitVec.ofNat 8 text.length)
  refine ⟨h1, h2, h3, by simp [encode, headerBytes, requestText]; omega, fun hw => ?_⟩
  simp only [textLength, encodeHeader, opcode, immediate, h1, h3]
  exact length_of_operand hw

theorem HeaderFields.printRow2 (text : List Byte) : HeaderFields.Statement (.printRow2 text) := by
  obtain ⟨h1, h2, h3⟩ := fields_of_parts 5#4 (BitVec.ofNat 8 text.length)
  refine ⟨h1, h2, h3, by simp [encode, headerBytes, requestText]; omega, fun hw => ?_⟩
  simp only [textLength, encodeHeader, opcode, immediate, h1, h3]
  exact length_of_operand hw

theorem HeaderFields.close : HeaderFields.Statement .close := by
  obtain ⟨h1, h2, h3⟩ := fields_of_parts 6#4 0#8
  exact ⟨h1, h2, h3, rfl, fun _ => by decide⟩

end Sys2Proof.Laws
end

