-- ==== Sys2Proof/Tests/Slice0.lean ====
section
/-!
SUPPORT. The model's own tests. Every expected value is the spec's: the worked examples of the rule named beside it, or
the vectors of spec/95_test_vectors.md. Below them, for every statement with hypotheses, a witness that meets them.
-/

namespace Sys2Proof.Tests

open Sys2Proof.Machine

/-! ## Small states -/

/-- What holds of the next state, where there is one. -/
def after {α : Type} (o : Result) (f : State → α) : Option α :=
  match o with
  | .next t => some (f t)
  | .fault _ => none
  | .refused _ => none

/-- The session after INIT, nothing going on. -/
def ready : State := { State.reset with initStarted := true, initDone := true }

/-- The bus address 0x80 is no legal one (95_test_vectors.md 2.8). -/
def misconfigured : State := State.resetWith 2 { Params.reference with busAddr := 0x80#8 }

/-- After CLOSE has taken effect. -/
def shut : State := { ready with closed := true }

/-- A request on the stream of port `p`, its ADMIT coming next. -/
def presenting (s : State) (p : Nat) (r : Record) : State := { s.issue p r with agenda := [.admitReq p] }

/-- INIT, SENDCMD 0x28 and CLOSE as records, and an illegal row print, which has no text (R177). -/
def initRecord : Record := ⟨0x1000#16, []⟩
def cmd28Record : Record := ⟨0x2028#16, []⟩
def closeRecord : Record := ⟨0x6000#16, []⟩
def illegalRowRecord : Record := ⟨0x4102#16, []⟩

/-- `s` with the move `m` coming next. -/
def about (s : State) (m : Move) : State := { s with agenda := [m] }

/-- The wiring `ALT` of 95_test_vectors.md: BL 0, RS 1, RW 2, E 3. -/
def altWiring : PinMap := packPinMap 1#3 2#3 3#3 4#3 5#3 6#3 7#3 0#3

/-- `TW(0x28, 1000, FIRST)` and its `SECOND` (41_protocol_engine.md R121, the example). -/
def pair28 : List TimedWrite := [⟨0x28#8, 1000#16, .first⟩, ⟨0x88#8, 1000#16, .second⟩]

/-- A port running SENDCMD 0x28, its next TimedWrite being number `idx`. -/
def running (idx : Nat) : Port :=
  { Port.reset with state := .run, op := 2#4, units := pair28, idx := idx, req := .legal (.sendCmd 0x28#8) }

/-- A port whose CLOSE waits. -/
def closing : Port := { Port.reset with state := .closeWait, op := 6#4, req := .legal .close }

/-- Port 0 runs and nothing of it has been accepted; port 1 waits to close. -/
def beforePair : State := { ready with ports := [running 0, closing] }

/-- Port 0's `FIRST` is in the slot and its enable-high write is pending; port 1 runs too (95_test_vectors.md D1). -/
def inPair : State :=
  { ready with
    ports := [running 1, running 0], lock := some 0, slot := ⟨true, 0x28#8, 1000#16, .first, 0⟩
    phase := .wrHi, busPending := true, busData := 0x2C#8 }

/-- The enable-high write has completed. -/
def afterHigh : State := { inPair with busPending := false, busTrace := [(0x2C#8, 0)] }

/-- The enable-low write has completed, at time 7. -/
def afterLow : State :=
  { afterHigh with phase := .wrLo, busData := 0x28#8, nowUs := 7, busTrace := [(0x2C#8, 0), (0x28#8, 7)] }

/-- The hold runs, until time 1007. -/
def holding : State := { afterLow with phase := .hold, holdUntil := 1007 }

/-- The hold has ended; the pair's `SECOND` is still to come. -/
def betweenNibbles : State :=
  { holding with nowUs := 1007, phase := .idle, slot := { holding.slot with valid := false } }

/-- The consumer loop has exited. -/
def exited : State := { shut with phase := .exited }

/-! ## Which requests are well formed (30_encoding.md R61, R81, R82) -/

theorem test_longest_text_is_well_formed : wellFormed (.printRow1 (List.replicate 255 0x41#8)) = true := by
  simp only [wellFormed, List.length_replicate]
  decide

theorem test_overlong_text_of_row_1_is_refused : wellFormed (.printRow1 (List.replicate 256 0x41#8)) = false := by
  simp only [wellFormed, List.length_replicate]
  decide

theorem test_overlong_text_of_row_2_is_refused : wellFormed (.printRow2 (List.replicate 256 0x41#8)) = false := by
  simp only [wellFormed, List.length_replicate]
  decide

theorem test_every_byte_operand_is_well_formed :
    wellFormed (.sendCmd 0xFF#8) = true ∧ wellFormed (.sendData 0x00#8) = true := by decide

/-! ## Decoding, each header written out bit by bit from 30_encoding.md R80 and R85 -/

/-- OP 0001, RSV 0000, IMM8 00000000. -/
theorem test_decode_init : decode [0b00010000#8, 0b00000000#8] = .request .init [] := by decide

/-- OP 0010, RSV 0000, IMM8 11111111; what follows is the next request's. -/
theorem test_decode_sendcmd :
    decode [0b00100000#8, 0b11111111#8, 0b01100000#8] = .request (.sendCmd 0xFF#8) [0x60#8] := by decide

/-- OP 0011, RSV 0000, IMM8 01000001. -/
theorem test_decode_senddata : decode [0b00110000#8, 0b01000001#8] = .request (.sendData 0x41#8) [] := by decide

/-- OP 0100, RSV 0000, IMM8 00000101, then the five text bytes of "HELLO" (95_test_vectors.md S5). -/
theorem test_decode_printrow1 :
    decode [0b01000000#8, 0b00000101#8, 0x48#8, 0x45#8, 0x4C#8, 0x4C#8, 0x4F#8] =
      .request (.printRow1 [0x48#8, 0x45#8, 0x4C#8, 0x4C#8, 0x4F#8]) [] := by decide

/-- OP 0101, RSV 0000, IMM8 00000000: an empty text. -/
theorem test_decode_printrow2 : decode [0b01010000#8, 0b00000000#8] = .request (.printRow2 []) [] := by decide

/-- OP 0110, RSV 0000, IMM8 00000000. -/
theorem test_decode_close : decode [0b01100000#8, 0b00000000#8] = .request .close [] := by decide

/-- 95_test_vectors.md 2.6: `0x50FF` with 255 bytes. -/
theorem test_decode_longest_text :
    decode (0x50#8 :: 0xFF#8 :: List.replicate 255 0x41#8) = .request (.printRow2 (List.replicate 255 0x41#8)) [] := by
  generalize ht : List.replicate 255 0x41#8 = text
  have hl : text.length = 255 := by rw [← ht, List.length_replicate]
  have hlen : textLength (headerOf 0x50#8 0xFF#8) = text.length := by rw [hl]; decide
  rw [decode, decodeHeader, hlen, if_pos (Nat.le_refl _), List.take_length, List.drop_length]
  rfl

/-- 95_test_vectors.md 2.6: the illegal headers; none of these opcodes is followed by a text (R84). -/
theorem test_decode_illegal :
    [0x1001#16, 0x1100#16, 0x6080#16, 0x0000#16, 0x7000#16, 0xF000#16, 0xFFFF#16].all
      (fun h => decodeHeader h [0x01#8] == .illegal h [0x01#8]) = true := by decide

/-- 95_test_vectors.md 2.6: a byte stream whose header `0x4105` is illegal by its `RSV`: the length is `2 + IMM8` by its
`OP` (R84; log 16). -/
theorem test_decode_illegal_row_print :
    decode [0x41#8, 0x05#8, 0x48#8, 0x45#8, 0x4C#8, 0x4C#8, 0x4F#8, 0x60#8, 0x00#8] =
      .illegal 0x4105#16 [0x60#8, 0x00#8] ∧
    decode [0x41#8, 0x05#8, 0x48#8, 0x45#8, 0x4C#8, 0x4C#8] = .incomplete := by decide

/-- R80, R177: the records that are whole: a text of `IMM8` bytes for a row print, none for any other header. -/
theorem test_whole_records :
    Record.whole ⟨0x4002#16, [0x41#8, 0x42#8]⟩ = true ∧ Record.whole ⟨0x4002#16, [0x41#8]⟩ = false ∧
    Record.whole illegalRowRecord = true ∧ Record.whole ⟨0x4102#16, [0x41#8, 0x42#8]⟩ = false ∧
    Record.whole closeRecord = true ∧ Record.whole ⟨0x6000#16, [0x41#8]⟩ = false := by decide

/-- On a byte stream, a text that is not all there is no request yet (R84). -/
theorem test_decode_incomplete :
    decode [0x40#8, 0x02#8, 0x41#8] = .incomplete ∧ decode [0x60#8] = .incomplete ∧ decode [] = .incomplete := by
  decide

/-- 95_test_vectors.md P2: the encoded byte stream. -/
theorem test_encode_program :
    encode .init ++ encode (.printRow1 [0x48#8, 0x45#8, 0x4C#8, 0x4C#8, 0x4F#8]) ++ encode (.sendCmd 0x01#8) ++
        encode .close =
      [0x10#8, 0x00#8, 0x40#8, 0x05#8, 0x48#8, 0x45#8, 0x4C#8, 0x4C#8, 0x4F#8, 0x20#8, 0x01#8, 0x60#8, 0x00#8] := by
  decide

/-- The rows of spec/opcode_table.json as table words; a text longer than the word is zeros. -/
theorem test_decode_table_words :
    decodeTableWord 16 0x1000 = some .init ∧ decodeTableWord 16 0x2028 = some (.sendCmd 0x28#8) ∧
    decodeTableWord 16 0x3041 = some (.sendData 0x41#8) ∧
    decodeTableWord 32 0x42414002 = some (.printRow1 [0x41#8, 0x42#8]) ∧
    decodeTableWord 16 0x5001 = some (.printRow2 [0x00#8]) ∧ decodeTableWord 16 0x6000 = some .close ∧
    decodeTableWord 16 0x7000 = none := by decide

/-- A table word is what the next step presents: SENDCMD on the fresh block is rejected (R201). -/
theorem test_fetch_word_runs_next :
    after (step (State.reset.withFetchWord 16 0x2001)) (fun t => t.ports.map fun port => port.responses) =
      some [[(.legal (.sendCmd 0x01#8), .errNotInit)], []] := by decide

/-! ## Bit Codec and framing (40_bit_codec.md, vectors of 95_test_vectors.md 2.1 and 2.2) -/

theorem test_bit_codec :
    setBit 0x28#8 2#3 = 0x2C#8 ∧ setBit 0x2C#8 2#3 = 0x2C#8 ∧ setBit 0x00#8 7#3 = 0x80#8 ∧
    clearBit 0x2C#8 2#3 = 0x28#8 ∧ clearBit 0x28#8 2#3 = 0x28#8 ∧ clearBit 0xFF#8 0#3 = 0xFE#8 ∧
    hasBit 0x09#8 0#3 = true ∧ hasBit 0x08#8 0#3 = false ∧ hasBit 0x80#8 7#3 = true ∧ hasBit 0x7F#8 7#3 = false := by
  decide

theorem test_frame_flags :
    nib referenceWiring .cmd = 0x08#8 ∧ nib referenceWiring .data = 0x09#8 ∧ modeByte referenceWiring = 0x28#8 ∧
    nib altWiring .cmd = 0x01#8 ∧ nib altWiring .data = 0x03#8 ∧ modeByte altWiring = 0x21#8 := by decide

theorem test_byte_traces_reference :
    (byteWrites referenceWiring .cmd 0x0F#8).flatMap (busBytes referenceWiring) = [0x0C#8, 0x08#8, 0xFC#8, 0xF8#8] ∧
    (byteWrites referenceWiring .cmd 0xA8#8).flatMap (busBytes referenceWiring) = [0xAC#8, 0xA8#8, 0x8C#8, 0x88#8] ∧
    (byteWrites referenceWiring .data 0xFF#8).flatMap (busBytes referenceWiring) = [0xFD#8, 0xF9#8, 0xFD#8, 0xF9#8] ∧
    (byteWrites referenceWiring .data 0x41#8).flatMap (busBytes referenceWiring) = [0x4D#8, 0x49#8, 0x1D#8, 0x19#8] := by
  decide

theorem test_byte_traces_alt :
    (byteWrites altWiring .cmd 0x28#8).flatMap (busBytes altWiring) = [0x29#8, 0x21#8, 0x89#8, 0x81#8] ∧
    (byteWrites altWiring .data 0xF0#8).flatMap (busBytes altWiring) = [0xFB#8, 0xF3#8, 0x0B#8, 0x03#8] := by decide

/-- R90: payload 0x28, hold 1000 = 0x03E8, pair FIRST = 1; and the pair code 3 stands for nothing. -/
theorem test_timed_write_layout :
    packTimedWrite ⟨0x28#8, 1000#16, .first⟩ = 0x103E828#26 ∧ unpackTimedWrite 0x303E828#26 = none := by decide

/-! ## Protocol Engine (41_protocol_engine.md, 95_test_vectors.md 2.3, 2.4 and S5) -/

theorem test_row_lengths :
    ([0, 1, 16, 17, 18, 20].map fun len => (rowWrites referenceWiring .one (List.replicate len 0x41#8)).length) =
      [36, 36, 36, 36, 38, 42] := by decide

theorem test_hello_bytes :
    ((rowWrites referenceWiring .one [0x48#8, 0x45#8, 0x4C#8, 0x4C#8, 0x4F#8]).flatMap (busBytes referenceWiring)).take 28 =
      [0x8C#8, 0x88#8, 0x0C#8, 0x08#8, 0x4D#8, 0x49#8, 0x8D#8, 0x89#8, 0x4D#8, 0x49#8, 0x5D#8, 0x59#8, 0x4D#8, 0x49#8,
        0xCD#8, 0xC9#8, 0x4D#8, 0x49#8, 0xCD#8, 0xC9#8, 0x4D#8, 0x49#8, 0xFD#8, 0xF9#8, 0x2D#8, 0x29#8, 0x0D#8, 0x09#8] := by
  decide

theorem test_init_start_reference :
    ((initWrites referenceWiring).flatMap (busBytes referenceWiring)).take 24 =
      [0x2C#8, 0x28#8, 0x2C#8, 0x28#8, 0x2C#8, 0x28#8, 0x8C#8, 0x88#8, 0x0C#8, 0x08#8, 0xCC#8, 0xC8#8,
        0x0C#8, 0x08#8, 0x1C#8, 0x18#8, 0x0C#8, 0x08#8, 0x2C#8, 0x28#8, 0x8C#8, 0x88#8, 0x0C#8, 0x08#8] := by decide

theorem test_init_start_alt :
    ((initWrites altWiring).flatMap (busBytes altWiring)).take 12 =
      [0x29#8, 0x21#8, 0x29#8, 0x21#8, 0x29#8, 0x21#8, 0x89#8, 0x81#8, 0x09#8, 0x01#8, 0xC9#8, 0xC1#8] := by decide

theorem test_init_writes_46_47 :
    ((initWrites referenceWiring).drop 46).take 2 = [⟨0xA8#8, 1000#16, .first⟩, ⟨0x88#8, 1000#16, .second⟩] := by decide

/-! ## The six requests (43_session_requests.md; responses of 95_test_vectors.md 2.7) -/

theorem test_init_starts :
    after (exec .init State.reset) (fun t => (t.initStarted, t.initDone, t.ports.map fun port => (port.state, port.units.length))) =
      some (true, false, [(.run, 82), (.idle, 0)]) := by decide

theorem test_init_twice :
    after (exec .init { State.reset with initStarted := true }) (fun t => (t.ports.head?).map fun port => port.responses) =
      some (some [(.legal .init, .errReinit)]) := by decide

theorem test_sendcmd_starts :
    after (exec (.sendCmd 0x28#8) ready) (fun t => (t.ports.head?).map fun port => (port.state, port.op, port.units)) =
      some (some (.run, 2#4, pair28)) := by decide

theorem test_sendcmd_before_init :
    after (exec (.sendCmd 0x01#8) State.reset) (fun t => t.ports.map fun port => (port.state, port.responses)) =
      some [(.idle, [(.legal (.sendCmd 0x01#8), .errNotInit)]), (.idle, [])] := by decide

theorem test_senddata_starts :
    after (exec (.sendData 0x41#8) { ready with cur := 1 }) (fun t => t.ports.map fun port => port.units) =
      some [[], [⟨0x49#8, 1000#16, .first⟩, ⟨0x19#8, 1000#16, .second⟩]] := by decide

theorem test_senddata_while_init_runs :
    after (exec (.sendData 0x41#8) { State.reset with initStarted := true, cur := 1 }) (fun t => t.ports.map fun port => port.responses) =
      some [[], [(.legal (.sendData 0x41#8), .errNotInit)]] := by decide

theorem test_printrow1_starts :
    after (exec (.printRow1 []) ready) (fun t => (t.ports.head?).map fun port => (port.op, port.units.length, port.units.head?)) =
      some (some (4#4, 36, some ⟨0x88#8, 1000#16, .first⟩)) := by decide

theorem test_printrow1_closed :
    after (exec (.printRow1 []) shut) (fun t => (t.ports.head?).map fun port => port.responses) =
      some (some [(.legal (.printRow1 []), .errClosed)]) := by decide

theorem test_printrow2_starts :
    after (exec (.printRow2 []) ready) (fun t => (t.ports.head?).map fun port => (port.op, port.units.length, port.units.head?)) =
      some (some (5#4, 36, some ⟨0xA8#8, 1000#16, .first⟩)) := by decide

theorem test_printrow2_overlong_is_passed_through :
    after (exec (.printRow2 (List.replicate 20 0x54#8)) ready)
        (fun t => (t.ports.head?).map fun port => (port.units.length, port.units.getLast?)) =
      some (some (42, some ⟨0x49#8, 1000#16, .second⟩)) := by decide

/-- CLOSE is legal before INIT (R176). -/
theorem test_close_waits :
    after (exec .close State.reset) (fun t => (t.closed, t.ports.map fun port => (port.state, port.responses))) =
      some (false, [(.closeWait, []), (.idle, [])]) := by decide

theorem test_close_misconfigured :
    after (exec .close misconfigured) (fun t => t.ports.map fun port => (port.state, port.responses)) =
      some [(.idle, [(.legal .close, .errCfg)]), (.idle, [])] := by decide

/-- An illegal header on the stream: rejected, the next request left (R177); ERR_CLOSED comes first (R206). -/
theorem test_illegal_header :
    after (step (presenting ready 1 ⟨0x7000#16, []⟩)) (fun t => t.ports.map fun port => (port.input, port.responses)) =
      some [([], []), ([], [(.illegal 0x7000#16, .errIllegal)])] ∧
    after (step (presenting shut 0 ⟨0x1001#16, []⟩)) (fun t => t.ports.map fun port => port.responses) =
      some [[(.illegal 0x1001#16, .errClosed)], []] := by decide

/-- R177: an illegal row print carries no text: it is rejected at once, and the CLOSE issued after it stays on the stream. -/
theorem test_illegal_row_print_takes_no_text :
    after (step { (ready.issue 0 illegalRowRecord).issue 0 closeRecord with agenda := [.admitReq 0] })
        (fun t => (t.ports.head?).map fun port => (port.input, port.responses)) =
      some (some ([closeRecord], [(.illegal 0x4102#16, .errIllegal)])) := by decide

/-- R80, R217: the host issues whole records only. -/
theorem test_host_issues_whole_records :
    after (step (about ready (.send 0 cmd28Record))) (fun t => t.ports.map fun port => port.input) = some [[cmd28Record], []] ∧
    after (step (about ready (.send 0 ⟨0x4001#16, []⟩))) (fun t => t.ports.map fun port => port.input) = some [[], []] := by
  decide

/-! ## The dispatcher (42_dispatcher.md, 95_test_vectors.md 2.5) -/

theorem test_accept :
    after (step (about beforePair (.accept 0))) (fun t => (t.slot, t.ports.map fun port => port.idx)) =
      some (⟨true, 0x28#8, 1000#16, .first, 0⟩, [1, 0]) ∧
    after (step (about beforePair (.accept 0))) (fun t => (t.lock, t.busData, t.busPending, t.phase)) =
      some (some 0, 0x2C#8, true, .wrHi) := by decide

/-- The pair's `SECOND` completes the request (R144) and frees the lock. -/
theorem test_accept_last :
    after (step (about betweenNibbles (.accept 0))) (fun t => (t.lock, t.ports.map fun port => (port.state, port.responses))) =
      some (none, [(.idle, [(.legal (.sendCmd 0x28#8), .ok)]), (.run, [])]) := by decide

/-- D1: with the lock held by port 0, port 1 is not eligible. -/
theorem test_lock_excludes_port_1 :
    after (step (about betweenNibbles (.accept 1))) (fun t => (t.phase, t.lock)) = some (.idle, some 0) := by decide

theorem test_bus_done :
    after (step (about inPair .busDone)) (fun t => (t.busTrace, t.busPending, t.phase)) =
      some ([(0x2C#8, 0)], false, .wrHi) := by decide

/-- D3: with the bus write pending the dispatcher waits. -/
theorem test_end_hi :
    after (step (about afterHigh .endHi)) (fun t => (t.busData, t.busPending, t.phase)) = some (0x28#8, true, .wrLo) ∧
    after (step (about inPair .endHi)) (fun t => (t.busPending, t.phase)) = some (true, .wrHi) := by decide

theorem test_end_lo :
    after (step (about afterLow .endLo)) (fun t => (t.holdUntil, t.phase)) = some (1007, .hold) := by decide

/-- D2: not at 999 µs after the enable-low write, but at 1000 µs. -/
theorem test_end_hold :
    after (step (about { holding with nowUs := 1006 } .endHold)) (fun t => t.phase) = some .hold ∧
    after (step (about { holding with nowUs := 1007 } .endHold)) (fun t => (t.phase, t.slot.valid)) =
      some (.idle, false) := by decide

/-- D4: after CLOSE the hold ends in EXITED, and so does idling; `STATUS` is then 0x1E (95_test_vectors.md P2). -/
theorem test_exit :
    after (step (about { holding with nowUs := 1007, closed := true } .endHold)) (fun t => t.phase) = some .exited ∧
    after (step (about shut .exit)) (fun t => (t.phase, t.status)) = some (.exited, 0x1E#8) := by decide

/-- A CLOSE taking effect cuts the other port's request off (R176, R203). -/
theorem test_close_effect :
    after (step (about beforePair (.closeEffect 1))) (fun t => (t.closed, t.ports.map fun port => (port.state, port.responses))) =
      some (true, [(.idle, [(.legal (.sendCmd 0x28#8), .errClosed)]), (.idle, [(.legal .close, .ok)])]) := by decide

/-- A reset of the running block abandons the request without a response (R234). -/
theorem test_reset_running :
    after (step (about inPair (.reset Params.reference))) (fun t => (t.phase, t.lock, t.busPending, t.initDone)) =
      some (.idle, none, false, false) ∧
    after (step (about inPair (.reset Params.reference))) (fun t => t.ports.map fun port => (port.state, port.responses)) =
      some [(.idle, []), (.idle, [])] := by decide

/-! ## The configuration check (70_reset_and_hazards.md R231, 95_test_vectors.md 2.8) -/

theorem test_cfg_check_good :
    cfgOk referenceWiring 0x27#8 = true ∧ cfgOk altWiring 0x3F#8 = true ∧ cfgOk referenceWiring 0x7F#8 = true := by decide

theorem test_cfg_check_bad :
    cfgOk (packPinMap 0#3 0#3 2#3 4#3 5#3 6#3 7#3 3#3) 0x27#8 = false ∧
    cfgOk (packPinMap 0#3 1#3 2#3 4#3 5#3 6#3 7#3 4#3) 0x27#8 = false ∧
    cfgOk (packPinMap 4#3 5#3 6#3 0#3 1#3 2#3 3#3 7#3) 0x27#8 = false ∧
    cfgOk (packPinMap 0#3 1#3 2#3 7#3 6#3 5#3 4#3 3#3) 0x27#8 = false ∧
    cfgOk (referenceWiring ||| 0x01000000#32) 0x27#8 = false ∧ cfgOk referenceWiring 0x80#8 = false := by decide

/-! ## The assembler (30_encoding.md R89, R91) -/

theorem test_assemble_lines :
    assembleRequest "@1 SENDCMD 0x28 ; function set".toList = some (1, .sendCmd 0x28#8) ∧
    assembleRequest "SendData 'A'".toList = some (0, .sendData 0x41#8) ∧
    assembleRequest "SENDDATA 255".toList = some (0, .sendData 0xFF#8) ∧
    assembleRequest "SENDDATA 256".toList = none ∧
    assembleRequest "Initialize".toList = some (0, .init) ∧ assembleRequest "@3 CLOSE".toList = some (3, .close) := by
  decide

theorem test_assemble_text :
    assembleRequest ("PRINTROW1 ".toList ++ [quoteChar, 'A', backslash, 'x', 'F', 'f', ';', quoteChar]) =
      some (0, .printRow1 [0x41#8, 0xFF#8, 0x3B#8]) ∧
    assembleRequest "SENDCMD 0x9a".toList = some (0, .sendCmd 0x9A#8) ∧ assembleRequest "SENDCMD 0xG0".toList = none ∧
    assembleRequest ("PRINTROW 2, ".toList ++ [quoteChar, quoteChar]) = some (0, .printRow2 []) ∧
    assembleRequest ("PRINTROW 3, ".toList ++ [quoteChar, quoteChar]) = none := by decide

/-! ## Witnesses: states and operands that meet the hypotheses of each statement of Certificates/Slice0/Obligations.lean

Each is named after its statement. Statements without hypotheses (`SpecHeaderWordsDecode`, `BitCodecOperations`,
`RowPrintPositions` at `k = 0`, `InitSequenceOrder`, `PowerOnResetValues`, `StatusViewBits`) need none. -/

theorem test_witness_DecodeInvertsEncode : wellFormed (.printRow2 [0x41#8]) = true := by decide

theorem test_witness_DecodedRequestsReencode : decode [0x60#8, 0x00#8, 0x10#8] = .request .close [0x10#8] := by decide

theorem test_witness_OpcodeMapSettlesDecoding :
    decodeHeader 0x4001#16 [0x41#8] = .request (.printRow1 [0x41#8]) [] ∧ textLength 0x4001#16 ≤ [0x41#8].length ∧
    ∃ r ∈ opcodeRows, r.matchesHeader 0x4001#16 = true := by decide

/-- Each clause at its boundary: no text byte missing and one missing, `RSV` 0 and not, the opcodes 0 and 7. -/
theorem test_witness_IllegalHeadersDecodeAsIllegal :
    textLength 0x41FF#16 = 255 ∧ textLength 0x5000#16 = 0 ∧ textLength 0x30FF#16 = 0 ∧ textLength 0x60FF#16 = 0 ∧
    decodeHeader 0x4101#16 [0x41#8] = .illegal 0x4101#16 [] ∧ decodeHeader 0x4101#16 [] = .incomplete ∧
    decodeHeader 0x4001#16 [] = .incomplete ∧ decodeHeader 0x5100#16 [0x41#8] = .illegal 0x5100#16 [0x41#8] ∧
    decodeHeader 0x0000#16 [] = .illegal 0x0000#16 [] ∧ decodeHeader 0x7000#16 [] = .illegal 0x7000#16 [] ∧
    decodeHeader 0x2100#16 [] = .illegal 0x2100#16 [] ∧ decodeHeader 0x1001#16 [] = .illegal 0x1001#16 [] ∧
    decodeHeader 0x6001#16 [] = .illegal 0x6001#16 [] := by decide

theorem test_witness_StepRunsTheDecodedRequest :
    ∃ (s : State) (port : Port), s.nextMove = .admitReq 0 ∧ s.ports[0]? = some port ∧ port.state = .idle ∧
      port.input = [cmd28Record] ∧ cmd28Record.whole = true ∧ cmd28Record.request = some (.sendCmd 0x28#8) :=
  ⟨presenting ready 0 cmd28Record, _, rfl, rfl, rfl, rfl, by decide, by decide⟩

theorem test_witness_TimedWriteLayoutRoundTrips :
    unpackTimedWrite 0x103E828#26 = some ⟨0x28#8, 1000#16, .first⟩ ∧
    unpackTimedWrite 0x2000000#26 = some ⟨0x00#8, 0#16, .second⟩ ∧ unpackTimedWrite 0x3FFFFFF#26 = none := by decide

/-- For `NibbleClosedForms`, `NibblePairRecoversItsByte`, `RegisterSelectInBothNibbles`, `BacklightOnReadWriteClear` and
`RemappingMovesOnlyFlagBits`: two legal PinMaps. -/
theorem test_witness_legal_pin_maps :
    pinMapOk referenceWiring = true ∧ pinMapOk altWiring = true ∧ referenceWiring ≠ altWiring := by decide

theorem test_witness_EveryPayloadLeavesEnableClear :
    pinMapOk referenceWiring = true ∧ ⟨0x28#8, 5000#16, .none⟩ ∈ expand referenceWiring .init ∧
    ⟨0x28#8, 1000#16, .first⟩ ∈ expand referenceWiring (.sendCmd 0x28#8) := by decide

theorem test_witness_RemappingMovesOnlyFlagBits :
    (expand referenceWiring (.sendData 0x00#8))[1]? = some ⟨0x09#8, 1000#16, .second⟩ ∧
    (expand altWiring (.sendData 0x00#8))[1]? = some ⟨0x03#8, 1000#16, .second⟩ := by decide

/-- The last place of an empty text, and of a text longer than the row. -/
theorem test_witness_RowPrintPositions : 16 < max ([] : List Byte).length 17 ∧ 17 < max (List.replicate 18 0x41#8).length 17 := by
  decide

theorem test_witness_RowPrintLengthAndHolds :
    ([] : List Byte).length ≤ 255 ∧ ⟨0x88#8, 1000#16, .first⟩ ∈ rowWrites referenceWiring .one [] := by decide

theorem test_witness_ExpansionsAreMadeOfUnits : expand referenceWiring .close = [] ∧ wellFormed (.printRow1 []) = true := by
  decide

theorem test_witness_InitStartsTheHandshake :
    ∃ port : Port, State.reset.ports[State.reset.cur]? = some port ∧ port.state = .idle ∧ State.reset.cfgErr = false ∧
      State.reset.closed = false ∧ State.reset.initStarted = false := ⟨_, rfl, rfl, by decide, rfl, rfl⟩

/-- For `ByteRequestsStartOnePair`, `RowPrintsStartTheirRow` and `CloseWaitsForItsEffect`. -/
theorem test_witness_requests_after_init :
    ∃ port : Port, ready.ports[ready.cur]? = some port ∧ port.state = .idle ∧ ready.cfgErr = false ∧
      ready.closed = false ∧ ready.initDone = true := ⟨_, rfl, rfl, by decide, rfl, rfl⟩

theorem test_witness_MisconfigurationRejectsEveryRequest :
    ∃ port : Port, misconfigured.ports[misconfigured.cur]? = some port ∧ port.state = .idle ∧
      misconfigured.cfgErr = true := ⟨_, rfl, rfl, by decide⟩

theorem test_witness_ClosedSessionRejectsEveryRequest :
    ∃ port : Port, shut.ports[shut.cur]? = some port ∧ port.state = .idle ∧ shut.cfgErr = false ∧ shut.closed = true :=
  ⟨_, rfl, rfl, by decide, rfl⟩

theorem test_witness_RequestsBeforeInitAreRejected :
    ∃ port : Port, Instr.sendCmd 0x01#8 ≠ .init ∧ Instr.sendCmd 0x01#8 ≠ .close ∧
      State.reset.ports[State.reset.cur]? = some port ∧ port.state = .idle ∧ State.reset.cfgErr = false ∧
      State.reset.closed = false ∧ State.reset.initDone = false := ⟨_, by decide, by decide, rfl, rfl, by decide, rfl, rfl⟩

theorem test_witness_SecondInitIsRejected :
    ∃ port : Port, ready.ports[ready.cur]? = some port ∧ port.state = .idle ∧ ready.cfgErr = false ∧
      ready.closed = false ∧ ready.initStarted = true := ⟨_, rfl, rfl, by decide, rfl, rfl⟩

theorem test_witness_IllegalHeaderIsRejected :
    ∃ (s : State) (port : Port), s.nextMove = .admitReq 1 ∧ s.ports[1]? = some port ∧ port.state = .idle ∧
      port.input = [illegalRowRecord] ∧ requestOf 0x4102#16 [] = none :=
  ⟨presenting ready 1 illegalRowRecord, _, rfl, rfl, rfl, rfl, by decide⟩

/-- Every cause, and none, on an idle port. -/
theorem test_witness_RejectionPriority :
    (misconfigured.ports.map fun port => port.state) = [.idle, .idle] ∧ misconfigured.cfgErr = true ∧
    (shut.ports.map fun port => port.state) = [.idle, .idle] ∧ (shut.cfgErr, shut.closed) = (false, true) ∧
    (ready.ports.map fun port => port.state) = [.idle, .idle] ∧ (ready.cfgErr, ready.closed) = (false, false) ∧
    (ready.initStarted, ready.initDone) = (true, true) ∧
    (State.reset.cfgErr, State.reset.initStarted, State.reset.initDone) = (false, false, false) := by decide

theorem test_witness_AdmissionFrame : (after (exec .init ready) fun _ => ()) = some () ∧
    (after (exec (.sendData 0x41#8) ready) fun _ => ()) = some () := by decide

theorem test_witness_ExecStopsOffIdlePorts :
    { ready with cur := 2 }.ports[2]? = none ∧ (beforePair.ports[beforePair.cur]?.map fun port => port.state) = some .run ∧
    (ready.ports[ready.cur]?.map fun port => port.state) = some .idle := by decide

/-- The `FIRST` of a pair, with no lock. -/
theorem test_witness_AcceptTakesOneTimedWrite :
    ∃ (s : State) (port : Port), s.nextMove = .accept 0 ∧ s.ports[0]? = some port ∧ s.phase = .idle ∧
      s.busPending = false ∧ port.state = .run ∧ port.units[port.idx]? = some ⟨0x28#8, 1000#16, .first⟩ ∧
      (s.lock = none ∨ s.lock = some 0) ∧ s.closed = false :=
  ⟨about beforePair (.accept 0), _, rfl, rfl, rfl, rfl, rfl, rfl, .inl rfl, rfl⟩

/-- The `SECOND` of a pair, the last of its request, with the lock held. -/
theorem test_witness_AcceptTakesOneTimedWrite_last :
    ∃ (s : State) (port : Port), s.nextMove = .accept 0 ∧ s.ports[0]? = some port ∧ s.phase = .idle ∧
      s.busPending = false ∧ port.state = .run ∧ port.units[port.idx]? = some ⟨0x88#8, 1000#16, .second⟩ ∧
      port.idx + 1 = port.units.length ∧ (s.lock = none ∨ s.lock = some 0) ∧ s.closed = false :=
  ⟨about betweenNibbles (.accept 0), _, rfl, rfl, rfl, rfl, rfl, rfl, rfl, .inr rfl, rfl⟩

theorem test_witness_EndHiWritesEnableLow :
    (about afterHigh .endHi).nextMove = .endHi ∧ afterHigh.phase = .wrHi ∧ afterHigh.busPending = false ∧
    afterHigh.slot.valid = true ∧ { afterHigh with slot := Slot.reset }.slot.valid = false := by decide

theorem test_witness_EndLoStartsTheHold :
    (about afterLow .endLo).nextMove = .endLo ∧ afterLow.phase = .wrLo ∧ afterLow.busPending = false ∧
    afterLow.slot.valid = true ∧ { afterLow with slot := Slot.reset }.slot.valid = false := by decide

/-- At the hold's end, and one microsecond before it. -/
theorem test_witness_HoldEndsNoEarlierThanItsTime :
    (about holding .endHold).nextMove = .endHold ∧ holding.phase = .hold ∧
    holding.holdUntil ≤ { holding with nowUs := 1007 }.nowUs ∧ { holding with nowUs := 1006 }.nowUs < holding.holdUntil := by
  decide

theorem test_witness_ExitAfterClose :
    (about shut .exit).nextMove = .exit ∧ shut.phase = .idle ∧ shut.closed = true ∧ ready.phase = .idle ∧
    ready.closed = false := by decide

theorem test_witness_BusDoneExtendsTheTrace :
    (about inPair .busDone).nextMove = .busDone ∧ inPair.busPending = true ∧ ready.busPending = false := by decide

theorem test_witness_TickAdvancesTime : (about ready (.tick 1)).nextMove = .tick 1 ∧ 1 ≤ 1 := by decide

theorem test_witness_CloseTakesEffect :
    ∃ (s : State) (port : Port), s.nextMove = .closeEffect 1 ∧ s.ports[1]? = some port ∧ port.state = .closeWait ∧
      s.lock = none ∧ s.closed = false ∧ (s.ports[0]?.map fun other => other.state) = some .run :=
  ⟨about beforePair (.closeEffect 1), _, rfl, rfl, rfl, rfl, rfl, rfl⟩

/-- ACCEPT and ADMIT waiting, each for each of its reasons. -/
theorem test_witness_WaitingAgentsChangeNothing_producers :
    (about inPair (.accept 1)).nextMove = .accept 1 ∧ inPair.phase ≠ .idle ∧ inPair.busPending = true ∧
    inPair.lock = some 0 ∧ shut.closed = true ∧
    (ready.ports[0]?.map fun port => port.state) = some .idle ∧
    (about beforePair (.admitReq 0)).nextMove = .admitReq 0 ∧ (beforePair.ports[0]?.map fun port => port.state) = some .run ∧
    (ready.ports[0]?.map fun port => port.input) = some [] ∧ Record.whole ⟨0x4001#16, []⟩ = false := by decide

/-- The host issuing what is no record. -/
theorem test_witness_WaitingAgentsChangeNothing_host :
    (about ready (.send 0 ⟨0x4102#16, [0x41#8, 0x42#8]⟩)).nextMove = .send 0 ⟨0x4102#16, [0x41#8, 0x42#8]⟩ ∧
    Record.whole ⟨0x4102#16, [0x41#8, 0x42#8]⟩ = false := by decide

/-- CLOSE_EFFECT and the dispatcher's other steps waiting. -/
theorem test_witness_WaitingAgentsChangeNothing_dispatcher :
    (about inPair (.closeEffect 1)).nextMove = .closeEffect 1 ∧ inPair.lock ≠ none ∧
    (about inPair .endHi).nextMove = .endHi ∧ inPair.busPending = true ∧
    (about ready .endLo).nextMove = .endLo ∧ ready.phase ≠ .wrLo ∧ (about ready .endHold).nextMove = .endHold ∧
    ready.phase ≠ .hold ∧ (about inPair .exit).nextMove = .exit ∧ inPair.phase ≠ .idle := by decide

theorem test_witness_BusStallHoldsTheDispatcher :
    ∃ s : State, s.waitsForBus = true ∧ s.nextMove ≠ .busDone ∧ (∀ c, s.nextMove ≠ .reset c) ∧ s.lock ≠ none ∧
      (s.ports[1]?.map fun port => port.state) = some .run :=
  ⟨about inPair .endHi, rfl, by decide, nofun, by decide, rfl⟩

theorem test_witness_ResetWhileRunning :
    ∃ s : State, s.nextMove = .reset Params.reference ∧ s.busPending = true ∧
      (s.ports[0]?.map fun port => port.state) = some .run := ⟨about inPair (.reset Params.reference), rfl, rfl, rfl⟩

theorem test_witness_ConfigurationCheckDecides :
    cfgOk altWiring 0x7F#8 = true ∧ cfgOk altWiring 0x80#8 = false := by decide

theorem test_witness_InvariantsHoldAtReset : 1 ≤ State.reset.ports.length := by decide

/-- What holds of both ports holds of every port. -/
theorem both_ports {P : Nat → Port → Prop} {a b : Port} (ha : P 0 a) (hb : P 1 b) :
    ∀ (p : Nat) (port : Port), [a, b][p]? = some port → P p port
  | 0, _, h => by cases h; exact ha
  | 1, _, h => by cases h; exact hb
  | _ + 2, _, h => by cases h

/-- The state in the middle of a pair meets the invariant of the block and that of the trace. -/
theorem test_witness_inPair_inv : (about inPair .busDone).Inv ∧ (about inPair .busDone).TraceInv := by
  refine ⟨?_, ?_⟩ <;> constructor
  case refine_1.lockRuns => rintro q hq; cases hq; exact ⟨_, rfl, rfl⟩
  case refine_1.closedQuiet => exact nofun
  case refine_1.portsOk => exact both_ports (by decide) (by decide)
  case refine_2.lowPast => exact nofun
  all_goals decide

/-- For `EveryStepKeepsTheInvariant`, `GoodStatesNeverStop`, `EveryStepKeepsTheTraceInvariant`, `OccupiedSlotBlocksHandoff`
and `PairLockExcludesOtherProducers`: a good state in the middle of a pair, and its next state. -/
theorem test_witness_good_state_in_a_pair :
    ∃ s t : State, s.Inv ∧ s.TraceInv ∧ s.lock = some 0 ∧ s.slot.valid = true ∧ (∀ c, s.nextMove ≠ .reset c) ∧
      step s = .next t ∧ (s.ports[1]?.map fun port => port.state) = some .run :=
  ⟨about inPair .busDone, _, test_witness_inPair_inv.1, test_witness_inPair_inv.2, rfl, rfl, nofun, rfl, rfl⟩

/-- The lock is released by the acceptance of the `SECOND`. -/
theorem test_witness_PairLockExcludesOtherProducers_release :
    ∃ s t : State, s.Inv ∧ s.lock = some 0 ∧ (∀ c, s.nextMove ≠ .reset c) ∧ step s = .next t ∧ t.lock = none := by
  refine ⟨about betweenNibbles (.accept 0), _, ?_, rfl, nofun, rfl, rfl⟩
  constructor
  case lockRuns => rintro q hq; cases hq; exact ⟨_, rfl, rfl⟩
  case closedQuiet => exact nofun
  case portsOk => exact both_ports (by decide) (by decide)
  all_goals decide

theorem test_witness_FlagsAndConfigurationPersist :
    ∃ s t : State, step s = .next t ∧ (∀ c, s.nextMove ≠ .reset c) ∧ s.initStarted = true ∧ s.initDone = true ∧
      s.closed = true := ⟨about shut .exit, _, rfl, nofun, rfl, rfl, rfl⟩

theorem test_witness_OnlyTheDispatcherWritesTheBus :
    ∃ s t : State, step s = .next t ∧ s.busPending = false ∧ t.busPending = true :=
  ⟨about beforePair (.accept 0), _, rfl, rfl, rfl⟩

theorem test_witness_ExitedIsTerminal :
    ∃ s t : State, s.Inv ∧ s.phase = .exited ∧ (∀ c, s.nextMove ≠ .reset c) ∧ step s = .next t := by
  refine ⟨about exited (.accept 0), _, ?_, rfl, nofun, rfl⟩
  constructor
  case lockRuns => exact nofun
  case closedQuiet => exact fun _ => ⟨rfl, both_ports (by decide) (by decide)⟩
  case portsOk => exact both_ports (by decide) (by decide)
  all_goals decide

theorem test_witness_MisconfiguredBlockStaysSilent :
    ∃ s t : State, s.Inv ∧ s.cfgErr = true ∧ (∀ c, s.nextMove ≠ .reset c) ∧ step s = .next t := by
  refine ⟨presenting misconfigured 0 initRecord, _, ?_, by decide, nofun, rfl⟩
  constructor
  case lockRuns => exact nofun
  case closedQuiet => exact nofun
  case portsOk => exact both_ports (by decide) (by decide)
  all_goals decide

theorem test_witness_AdmittedRequestWritesItsBytes :
    ∃ (s : State) (port : Port), s.ports[0]? = some port ∧ port.state = .idle ∧
      port.input = [recordOf (.sendCmd 0x28#8)] ∧ Instr.sendCmd 0x28#8 ≠ .close ∧ s.cfgErr = false ∧
      s.closed = false ∧ s.initDone = true ∧ s.phase = .idle ∧ s.lock = none ∧ s.busPending = false ∧
      s.agenda = .admitReq 0 :: (expand s.pinMap (.sendCmd 0x28#8)).flatMap (pulseMoves 0) ++ [.tick 1] :=
  ⟨{ presenting ready 0 cmd28Record with
      agenda := .admitReq 0 :: (expand ready.pinMap (.sendCmd 0x28#8)).flatMap (pulseMoves 0) ++ [.tick 1] },
    _, rfl, rfl, by decide, by decide, by decide, rfl, rfl, rfl, rfl, rfl, rfl⟩

/-- INIT's own condition, on the fresh block. -/
theorem test_witness_AdmittedRequestWritesItsBytes_init :
    ∃ (s : State) (port : Port), s.ports[1]? = some port ∧ port.state = .idle ∧
      port.input = [recordOf .init] ∧ s.cfgErr = false ∧ s.closed = false ∧ s.initStarted = false ∧
      s.phase = .idle ∧ s.lock = none ∧ s.busPending = false ∧
      s.agenda = .admitReq 1 :: (expand s.pinMap .init).flatMap (pulseMoves 1) ++ [] :=
  ⟨{ presenting State.reset 1 initRecord with
      agenda := .admitReq 1 :: (expand State.reset.pinMap .init).flatMap (pulseMoves 1) ++ [] },
    _, rfl, rfl, by decide, by decide, rfl, rfl, rfl, rfl, rfl, rfl⟩

/-- The pair's `SECOND` is accepted in the first step; after it only time passes. -/
def finishPair : Nat → Move
  | 0 => .accept 0
  | _ + 1 => .tick 1

/-- Port 0 holds the lock, port 1 has nothing to do. -/
def lockedAlone : State := { betweenNibbles with ports := [running 1, Port.reset] }

/-- The state right after that acceptance. -/
def pairAccepted : State :=
  { lockedAlone with
    ports := [{ running 1 with state := .idle, units := [], idx := 0, responses := [(.legal (.sendCmd 0x28#8), .ok)] }, Port.reset]
    lock := none, slot := ⟨true, 0x88#8, 1000#16, .second, 0⟩, phase := .wrHi, busPending := true, busData := 0x8C#8 }

/-- The endless run under `finishPair`. -/
def pairRun : Nat → State
  | 0 => lockedAlone
  | n + 1 => { pairAccepted with nowUs := 1007 + n }

/-- The hypotheses all hold of `pairRun`, and so does what the statement says of its step 0. -/
theorem test_witness_PairLockHolderMakesProgress :
    IsRun finishPair pairRun ∧ ArbiterFair finishPair pairRun ∧ (∀ m c, finishPair m ≠ .reset c) ∧ (pairRun 0).Inv ∧
      (pairRun 0).lock = some 0 ∧ acceptsAt finishPair pairRun 0 0 := by
  refine ⟨?_, ?_, ?_, ?_, rfl, rfl, by decide⟩
  · rintro (_ | n) <;> rfl
  · intro p n h
    have hn := h (n + 1) (Nat.le_succ n)
    match p, hn with
    | 0, hn => cases hn
    | 1, hn => cases hn
    | _ + 2, hn => cases hn
  · rintro (_ | m) c <;> exact nofun
  · constructor
    case lockRuns => rintro q hq; cases hq; exact ⟨_, rfl, rfl⟩
    case closedQuiet => exact nofun
    case portsOk => exact both_ports (by decide) (by decide)
    all_goals decide

/-- The endless run in which only time passes. -/
theorem test_witness_HoldEventuallyExpires :
    IsRun (fun _ => .tick 1) (fun n => { State.reset with nowUs := n }) ∧ TimeFair (fun _ => .tick 1) :=
  ⟨fun _ => rfl, fun n => ⟨n, Nat.le_refl n, 1, Nat.le_refl 1, rfl⟩⟩

/-- A request ends in the step, by its last acceptance. -/
theorem test_witness_OneResponsePerRequest :
    ∃ (s t : State) (port port' : Port), step s = .next t ∧ s.ports[0]? = some port ∧ t.ports[0]? = some port' ∧
      (∀ c, s.nextMove ≠ .reset c) ∧ port.state ≠ .idle ∧ port'.state = .idle :=
  ⟨about betweenNibbles (.accept 0), _, _, _, rfl, rfl, rfl, nofun, by decide, rfl⟩

theorem test_witness_AssembledRequestsAreWellFormed :
    assembleRequest "SENDCMD 1".toList = some (0, .sendCmd 0x01#8) ∧ printRow 2 [] = some (.printRow2 []) ∧
    printRow 0 [] = none := by decide

theorem test_witness_FinishedRunsStayQuiet :
    ∃ s t : State, s.Inv ∧ s.finished = true ∧ (∀ c, s.nextMove ≠ .reset c) ∧ (∀ p r, s.nextMove ≠ .send p r) ∧
      step s = .next t := by
  refine ⟨about shut .exit, _, ?_, by decide, nofun, nofun, rfl⟩
  constructor
  case lockRuns => exact nofun
  case closedQuiet => exact fun _ => ⟨rfl, both_ports (by decide) (by decide)⟩
  case portsOk => exact both_ports (by decide) (by decide)
  all_goals decide

/-- The record clauses of `DecodedRequestsReencode` and of `IllegalHeadersDecodeAsIllegal`: a row print with its text, at the
shortest and at a nonempty length, and an illegal row print. -/
theorem test_witness_DecodedRequestsReencode_record :
    Record.whole ⟨0x4001#16, [0x41#8]⟩ = true ∧ Record.request ⟨0x4001#16, [0x41#8]⟩ = some (.printRow1 [0x41#8]) ∧
    Record.whole ⟨0x5000#16, []⟩ = true ∧ Record.request ⟨0x5000#16, []⟩ = some (.printRow2 []) ∧
    illegalRowRecord.whole = true ∧ illegalRowRecord.request = none := by decide

/-- A stream with a record on it, and the step that admits it. -/
theorem test_witness_EveryStepKeepsTheInvariant_streams :
    ∃ s t : State, s.StreamsWhole ∧ step s = .next t ∧ (s.ports.head?.map fun port => port.input) = some [cmd28Record] := by
  refine ⟨presenting ready 0 cmd28Record, _, both_ports ?_ ?_, rfl, rfl⟩ <;> decide

end Sys2Proof.Tests
end

section
/-!
PROOF. What every step but reset keeps: the configuration, the number of ports, a set flag (spec/10_state.md rules R30, R34 to
R37, R6), and a time that does not go back (R50). `State.Persists` is transitive, so a step is put together from
its parts: using up the move, taking the request off its stream, and the operation itself.
-/

namespace Sys2Proof.Machine

variable {s t u : State}

/-- From `s` to `t` the configuration and the number of ports stay, no flag is cleared, and the time does not go back. -/
structure State.Persists (s t : State) : Prop where
  time : s.nowUs ≤ t.nowUs
  nprod : t.ports.length = s.ports.length
  config : s.SameConfig t
  initStarted : s.initStarted = true → t.initStarted = true
  initDone : s.initDone = true → t.initDone = true
  closed : s.closed = true → t.closed = true

/-- An operation that writes neither the configuration nor a flag; where `t` is a record update of `s`, that is by `rfl`. -/
theorem State.Persists.of_sameFlags (time : s.nowUs ≤ t.nowUs) (nprod : t.ports.length = s.ports.length)
    (config : s.SameConfig t := by exact ⟨rfl, rfl, rfl, rfl⟩) (flags : s.SameFlags t := by exact ⟨rfl, rfl, rfl⟩) :
    s.Persists t := by
  obtain ⟨hi, hd, hc⟩ := flags
  exact ⟨time, nprod, config, hi.symm ▸ id, hd.symm ▸ id, hc.symm ▸ id⟩

theorem State.Persists.trans (h : s.Persists t) (h' : t.Persists u) : s.Persists u where
  time := h.time.trans h'.time
  nprod := h'.nprod.trans h.nprod
  config := by
    obtain ⟨hp, hb, ha, he⟩ := h.config
    obtain ⟨hp', hb', ha', he'⟩ := h'.config
    exact ⟨hp'.trans hp, hb'.trans hb, ha'.trans ha, he'.trans he⟩
  initStarted := h'.initStarted ∘ h.initStarted
  initDone := h'.initDone ∘ h.initDone
  closed := h'.closed ∘ h.closed

theorem persists_advance (s : State) : s.Persists s.advance :=
  .of_sameFlags (by simp) (by simp) (by simp [State.SameConfig]) (by simp [State.SameFlags])

theorem persists_setPort (s : State) (p : Nat) (port : Port) : s.Persists (s.setPort p port) :=
  .of_sameFlags (Nat.le_refl _) (by simp)

theorem persists_present (s : State) (p : Nat) (port : Port) (rest : List Record) :
    s.Persists (s.present p port rest) :=
  .of_sameFlags (Nat.le_refl _) (by simp)

/-- INIT's admission sets `INIT_STARTED` (R35). -/
theorem persists_setInitStarted (s : State) : s.Persists s.setInitStarted :=
  ⟨Nat.le_refl _, rfl, ⟨rfl, rfl, rfl, rfl⟩, fun _ => rfl, id, id⟩

/-- CLOSE taking effect sets `CLOSED` (R37, R176). -/
theorem persists_closeEffect (s : State) (p : Nat) : s.Persists (s.closeEffect p) :=
  ⟨Nat.le_refl _, by simp, ⟨rfl, rfl, rfl, rfl⟩, id, id, fun _ => rfl⟩

/-- A rejected request writes its response, an admitted one its port, and INIT its flag besides (R170, R207). -/
theorem persists_of_exec {i : Instr} (h : exec i s = .next t) : s.Persists t := by
  obtain ⟨port, -, -, ⟨code, rfl⟩ | ⟨-, -, ⟨-, -, rfl⟩ | ⟨-, -, -, rfl⟩ | ⟨-, rfl⟩⟩⟩ := exec_next h
  · exact persists_setPort ..
  · exact (persists_setInitStarted s).trans (persists_setPort ..)
  · exact persists_setPort ..
  · exact persists_setPort ..

/-- An illegal header is rejected, whatever the cause (R205, R206). -/
theorem persists_of_admitIllegal {hdr : Header} (h : s.admitIllegal hdr = .next t) : s.Persists t := by
  obtain ⟨port, -, -, ⟨rfl, -⟩ | ⟨rfl, -⟩ | ⟨rfl, -⟩⟩ := admission_next h <;> exact persists_setPort ..

/-- ADMIT (R170). -/
theorem persists_of_admitReq {p : Nat} (hg : s.canAdmit p = true) (h : s.admitReq p = .next t) : s.Persists t := by
  obtain ⟨port, r, rest, -, -, -, -, ⟨i, -, hx⟩ | ⟨-, hx⟩⟩ := admit_next hg h
  · exact (persists_present s p port rest).trans (persists_of_exec hx)
  · exact (persists_present s p port rest).trans (persists_of_admitIllegal hx)

/-- ACCEPT: the last TimedWrite of INIT sets `INIT_DONE`, and nothing clears it (R142, R144, R36). -/
theorem persists_accept {p : Nat} (hg : s.canAccept p = true) : s.Persists (s.accept p) := by
  obtain ⟨hconf, hi, hc, hd, -, ht, -, -, hn⟩ := accept_frame hg
  exact ⟨ht.ge, hn, hconf, hi.symm ▸ id, hd, hc.symm ▸ id⟩

/-- Every enabled move but reset (R178). -/
theorem persists_of_perform {m : Move} (hm : ∀ c, m ≠ .reset c) (hg : s.enabled m = true)
    (h : s.perform m = .next t) : s.Persists t := by
  cases m with
  | send p r =>
    cases h
    obtain ⟨hconf, hflags, -, -, ⟨ht, -⟩, ⟨hn, -⟩, -⟩ := issue_frame (s := s) p r
    exact .of_sameFlags ht.ge hn hconf hflags
  | admitReq p => exact persists_of_admitReq hg h
  | closeEffect p => cases h; exact persists_closeEffect s p
  | accept p => cases h; exact persists_accept hg
  | endHi => obtain ⟨-, rfl⟩ := endHi_next h; exact .of_sameFlags (Nat.le_refl _) rfl
  | endLo => obtain ⟨-, rfl⟩ := endLo_next h; exact .of_sameFlags (Nat.le_refl _) rfl
  | endHold | exit | busDone => cases h; exact .of_sameFlags (Nat.le_refl _) rfl
  | tick n => cases h; exact .of_sameFlags (Nat.le_add_right ..) rfl
  | reset c => exact absurd rfl (hm c)

/-- Every step but reset, taken or passed over. -/
theorem persists_of_step (hm : ∀ c, s.nextMove ≠ .reset c) (h : step s = .next t) : s.Persists t := by
  obtain ⟨-, rfl⟩ | ⟨hg, hx⟩ := step_next h
  · exact persists_advance s
  · exact (persists_advance s).trans (persists_of_perform hm hg hx)

/-- Reset is never held, so a step whose move is reset resets (R234). -/
theorem step_reset {c : Params} (hm : s.nextMove = .reset c) : step s = .next (s.advance.resetRunning c) := by
  rw [step_of_enabled (by rw [hm]; rfl), hm]; rfl

/-- Reset keeps the time from going back (R50) and the ports as many as they were (R6). -/
theorem resetRunning_time_nprod (s : State) (c : Params) :
    s.nowUs ≤ (s.resetRunning c).nowUs ∧ (s.resetRunning c).ports.length = s.ports.length :=
  ⟨Nat.le_max_left .., by simp [State.resetRunning]⟩

/-- Settles O48: a step but reset by `persists_of_step`; a reset keeps the time and the number of ports. -/
theorem flagsAndConfigurationPersist : Obligations.FlagsAndConfigurationPersist := by
  intro s t h
  by_cases hm : ∃ c, s.nextMove = .reset c
  · obtain ⟨c, hc⟩ := hm
    obtain rfl : s.advance.resetRunning c = t := by simpa [step_reset hc] using h
    obtain ⟨ht, hn⟩ := resetRunning_time_nprod s.advance c
    exact ⟨by simpa using ht, by simpa using hn, fun hne => absurd hc (hne c)⟩
  · have hp := persists_of_step (not_exists.1 hm) h
    exact ⟨hp.time, hp.nprod, fun _ => ⟨hp.config, hp.initStarted, hp.initDone, hp.closed⟩⟩

end Sys2Proof.Machine
end

section
/-!
PROOF. `STATUS` (spec/10_state.md rule R38): five flags packed above each other, and three zero bits on top.
-/

namespace Sys2Proof.Machine

/-- Five flags packed as `STATUS` packs them, `exited` the highest: each is read back at its own bit, and nothing above. -/
theorem packedFlags_bits (exited closed initDone initStarted cfgErr : Bool) :
    let packed : BitVec 8 :=
      0#3 ++ flagBit exited ++ flagBit closed ++ flagBit initDone ++ flagBit initStarted ++ flagBit cfgErr
    packed.getLsbD 0 = cfgErr ∧ packed.getLsbD 1 = initStarted ∧ packed.getLsbD 2 = initDone ∧
      packed.getLsbD 3 = closed ∧ packed.getLsbD 4 = exited ∧ packed.extractLsb' 5 3 = 0#3 := by
  revert exited closed initDone initStarted cfgErr
  decide

/-- Settles O44: `STATUS` packs the four flags and whether the phase is `EXITED`. -/
theorem statusViewBits : Obligations.StatusViewBits :=
  fun s => packedFlags_bits (s.phase == .exited) s.closed s.initDone s.initStarted s.cfgErr

end Sys2Proof.Machine
end

section
/-!
PROOF. What the Protocol Engine hands to the dispatcher (spec/41_protocol_engine.md): every expansion is made of units
(R120), has between one and 512 TimedWrites (R41) but for CLOSE's, and under a legal PinMap each of its TimedWrites is well
built (R90, R110, R111).
-/

namespace Sys2Proof.Machine

variable {pm : PinMap}

/-! ## The frame flags in a payload -/

theorem hasBit_eq_getLsbD (v : Byte) (p : Pos) : hasBit v p = v.getLsbD p.toNat := by
  unfold hasBit
  rw [BitVec.and_one_eq_setWidth_ofBool_getLsbD]
  cases h : v.getLsbD p.toNat <;> simp [h]

/-- Setting a bit shows at its own position alone (R100). -/
theorem hasBit_setBit (v : Byte) (p q : Pos) : hasBit (setBit v p) q = (hasBit v q || decide (q = p)) := by
  have hp : p.toNat < 8 := p.isLt
  have hbit : setBit v p = v ||| BitVec.twoPow 8 p.toNat := rfl
  simp [hasBit_eq_getLsbD, hbit, BitVec.getLsbD_twoPow, hp, BitVec.toNat_inj, eq_comm]

/-- Below bit 4 both nibbles of a byte carry the frame flags (R105, R106). -/
theorem hasBit_hiByte {nb v : Byte} {p : Pos} (h : p.toNat < 4) : hasBit (hiByte nb v) p = hasBit nb p := by
  simp [hasBit_eq_getLsbD, hiByte, h]

theorem hasBit_loByte {nb v : Byte} {p : Pos} (h : p.toNat < 4) : hasBit (loByte nb v) p = hasBit nb p := by
  have hmask : (0x0F#8).getLsbD p.toNat = true ∧ (0xF0#8).getLsbD p.toNat = false := by
    revert p
    decide
  simp [hasBit_eq_getLsbD, loByte, hmask]

/-- A legal PinMap has its four flag lines at the positions 0 to 3, each at its own (R231). -/
theorem flagPositions_of_pinMapOk (h : pinMapOk pm = true) :
    (flagPositions pm).Nodup ∧ ∀ p ∈ flagPositions pm, p.toNat < 4 := by
  simp only [pinMapOk, flagsOk, Bool.and_eq_true, List.all_eq_true, List.contains_iff_mem] at h
  obtain ⟨⟨⟨⟨⟨⟨hcover, hwithin⟩, -⟩, -⟩, -⟩, -⟩, -⟩ := h
  have hperm : [0#3, 1#3, 2#3, 3#3].Perm (flagPositions pm) :=
    (List.subperm_of_subset (by decide) hcover).perm_of_length_le (Nat.le_refl 4)
  have hlow : ∀ p ∈ [0#3, 1#3, 2#3, 3#3], p.toNat < 4 := by decide
  exact ⟨hperm.nodup (by decide), fun p hp => hlow p (hwithin p hp)⟩

/-- The frame flags of either kind: enable and read/write clear, backlight set (R104, R110, R111). -/
theorem hasBit_nib (h : pinMapOk pm = true) (kind : FrameKind) :
    hasBit (nib pm kind) (ePos pm) = false ∧ hasBit (nib pm kind) (rwPos pm) = false ∧
      hasBit (nib pm kind) (blPos pm) = true := by
  have hzero (p : Pos) : hasBit 0x00#8 p = false := by simp [hasBit_eq_getLsbD]
  have hnodup : [rsPos pm, rwPos pm, ePos pm, blPos pm].Nodup := (flagPositions_of_pinMapOk h).1
  obtain ⟨hrs, hrw, he, -⟩ : (rsPos pm ≠ rwPos pm ∧ rsPos pm ≠ ePos pm ∧ rsPos pm ≠ blPos pm) ∧
      (rwPos pm ≠ ePos pm ∧ rwPos pm ≠ blPos pm) ∧ ePos pm ≠ blPos pm ∧ True := by
    simpa using hnodup
  cases kind <;> simp [nib, hasBit_setBit, hzero, hrs.1.symm, hrs.2.1.symm, hrw.2, he]

/-- Whatever byte is framed, both nibbles are well built, with either hold (R105, R106, R110, R111). -/
theorem payloadOk_nibbles (h : pinMapOk pm = true) (kind : FrameKind) (v : Byte) {hold : BitVec 16}
    (hh : hold = holdStdUs ∨ hold = holdInitUs) (pair : Pair) :
    payloadOk pm ⟨hiByte (nib pm kind) v, hold, pair⟩ = true ∧
      payloadOk pm ⟨loByte (nib pm kind) v, hold, pair⟩ = true := by
  have hlow := (flagPositions_of_pinMapOk h).2
  have he : (ePos pm).toNat < 4 := hlow _ (by simp [flagPositions])
  have hrw : (rwPos pm).toNat < 4 := hlow _ (by simp [flagPositions])
  have hbl : (blPos pm).toNat < 4 := hlow _ (by simp [flagPositions])
  simp [payloadOk, hasBit_hiByte, hasBit_loByte, he, hrw, hbl, hasBit_nib h, hh]

/-! ## Expansions -/

/-- An expansion is put together from mode-switch nibbles and the pairs of bytes (R121 to R129). -/
theorem mem_expand {i : Instr} {tw : TimedWrite} (h : tw ∈ expand pm i) :
    tw ∈ modeWrites pm ∨ ∃ kind v, tw ∈ byteWrites pm kind v := by
  have row {r : Row} {text : List Byte} (h : tw ∈ rowWrites pm r text) : ∃ kind v, tw ∈ byteWrites pm kind v := by
    simp only [rowWrites, List.mem_append, List.mem_flatMap] at h
    obtain (h | ⟨v, -, h⟩) | ⟨v, -, h⟩ := h <;> exact ⟨_, _, h⟩
  cases i with
  | init =>
    simp only [expand, initWrites, List.mem_append, List.mem_flatten] at h
    obtain ((((((⟨l, hl, h⟩ | h) | h) | h) | h) | h) | h) := h
    · exact .inl (List.eq_of_mem_replicate hl ▸ h)
    · exact .inr ⟨_, _, h⟩
    · exact .inr ⟨_, _, h⟩
    · exact .inr ⟨_, _, h⟩
    · exact .inr ⟨_, _, h⟩
    · exact .inr (row h)
    · exact .inr (row h)
  | sendCmd | sendData => exact .inr ⟨_, _, h⟩
  | printRow1 | printRow2 => exact .inr (row h)
  | close => cases h

/-- Under a legal PinMap every TimedWrite of an expansion is well built (R90, R110 to R112). -/
theorem payloadOk_of_mem_expand (h : pinMapOk pm = true) {i : Instr} {tw : TimedWrite} (htw : tw ∈ expand pm i) :
    payloadOk pm tw = true := by
  obtain hm | ⟨kind, v, hb⟩ := mem_expand htw
  · obtain rfl := List.mem_singleton.1 hm
    exact (payloadOk_nibbles h .cmd _ (.inr rfl) .none).1
  · obtain rfl | rfl := mem_byteWrites hb
    · exact (payloadOk_nibbles h kind v (.inl rfl) .first).1
    · exact (payloadOk_nibbles h kind v (.inl rfl) .second).2

/-- A row print in front of units (R120, R123). -/
@[simp] theorem isUnits_rowWrites_append (r : Row) (text : List Byte) (tws : List TimedWrite) :
    isUnits (rowWrites pm r text ++ tws) = isUnits tws := by
  simp only [rowWrites, List.append_assoc, isUnits_byteWrites_append, isUnits_flatMap_append]

/-- A mode-switch nibble in front of units (R120, R122). -/
@[simp] theorem isUnits_modeWrites_append (tws : List TimedWrite) : isUnits (modeWrites pm ++ tws) = isUnits tws := by
  simp [modeWrites, isUnits]

/-- Every expansion is a concatenation of units (R120, R129). -/
theorem isUnits_expand_append (i : Instr) (tws : List TimedWrite) : isUnits (expand pm i ++ tws) = isUnits tws := by
  cases i <;> simp [expand, initWrites, modeSwitchCount, List.replicate_succ]

theorem isUnits_expand (i : Instr) : isUnits (expand pm i) = true := by
  simpa [isUnits] using isUnits_expand_append (pm := pm) i []

/-- A row print takes two TimedWrites for its base address, for each character and for each padding character (R123). -/
theorem rowWrites_length (r : Row) (text : List Byte) :
    (rowWrites pm r text).length = 2 * (1 + text.length + padCount text.length) := by
  simp only [rowWrites, List.length_append, byteWrites_length, flatMap_byteWrites_length, List.length_replicate]
  omega

/-- A request that a header can carry expands to at most 512 TimedWrites, and to none only for CLOSE (R41, R129). -/
theorem expand_length {i : Instr} (hw : wellFormed i = true) (hi : i ≠ .close) :
    0 < (expand pm i).length ∧ (expand pm i).length ≤ 512 := by
  cases i with
  | init => simp [expand, initWrites, modeSwitchCount, modeWrites, rowWrites_length, padCount, rowWidth]
  | sendCmd | sendData => simp [expand]
  | printRow1 text | printRow2 text =>
    have : text.length ≤ 255 := by simpa [wellFormed] using hw
    simp only [expand, rowWrites_length, padCount, rowWidth]
    omega
  | close => exact absurd rfl hi

/-! ## Whole records -/

/-- The text of a record delivered whole is at most as long as `IMM8` can say (R80, R82, R84). -/
theorem text_length_le_of_whole {r : Record} (hw : r.whole = true) : r.text.length ≤ textMax := by
  have hlen : r.text.length = recordTextLength r.header := by simpa [Record.whole] using hw
  have himm : (headerImm r.header).toNat ≤ textMax := Nat.le_of_lt_succ (headerImm r.header).isLt
  rw [hlen]
  unfold recordTextLength textLength
  split_ifs
  · exact himm
  · exact Nat.zero_le _
  · exact Nat.zero_le _

/-- A decoded row print carries the record's own text (R82, R88). -/
theorem wellFormed_of_requestOf {h : Header} {text : List Byte} {i : Instr} (hlen : text.length ≤ textMax)
    (hr : requestOf h text = some i) : wellFormed i = true := by
  unfold requestOf at hr
  split_ifs at hr
  all_goals split at hr <;> cases hr <;> simp [wellFormed, hlen]

/-- A legal request delivered whole is one a header can carry (R80, R82). -/
theorem wellFormed_of_whole {r : Record} {i : Instr} (hw : r.whole = true) (hr : r.request = some i) :
    wellFormed i = true :=
  wellFormed_of_requestOf (text_length_le_of_whole hw) hr

end Sys2Proof.Machine
end

section
/-!
PROOF. The request streams hold whole records (spec/30_encoding.md rules R80, R217; log 10): only `send` puts a record on a
stream, and a whole one; every other move leaves a stream as it is or takes its first record off.
-/

namespace Sys2Proof.Machine

variable {s t : State} {p : Nat} {port port' : Port}

/-- What holds of the port written and of every other port holds of every port. -/
theorem forall_port_set {P : Nat → Port → Prop} {ports : List Port} (hself : P p port')
    (hother : ∀ (q : Nat) (port : Port), q ≠ p → ports[q]? = some port → P q port) :
    ∀ (q : Nat) (port : Port), (ports.set p port')[q]? = some port → P q port := by
  intro q port hq
  by_cases hqp : p = q
  · subst hqp
    obtain ⟨-, rfl⟩ : p < ports.length ∧ port' = port := by simpa using List.getElem?_eq_some_iff.1 hq
    exact hself
  · rw [List.getElem?_set_ne hqp] at hq
    exact hother q port (Ne.symm hqp) hq

theorem streamsWhole_of_set (hs : s.StreamsWhole) (ht : t.ports = s.ports.set p port')
    (hin : ∀ r ∈ port'.input, r.whole = true) : t.StreamsWhole := by
  unfold State.StreamsWhole
  rw [ht]
  exact forall_port_set hin fun q port _ hq => hs q port hq

/-- Where every port of `t` has the stream of the port of `s` it comes from. -/
theorem streamsWhole_of_map {f : Nat → Port → Port} (hs : s.StreamsWhole)
    (ht : ∀ q, t.ports[q]? = (s.ports[q]?).map (f q)) (hf : ∀ q port, (f q port).input = port.input) :
    t.StreamsWhole := by
  intro q port hq
  rw [ht, Option.map_eq_some_iff] at hq
  obtain ⟨port₀, hq, rfl⟩ := hq
  rw [hf]
  exact hs q port₀ hq

@[simp] theorem cutOff_input (port : Port) : port.cutOff.input = port.input := by
  unfold Port.cutOff
  split <;> rfl

/-- A request's meaning writes its port but not its stream (R170). -/
theorem streamsWhole_of_exec {i : Instr} (hs : s.StreamsWhole) (h : exec i s = .next t) : t.StreamsWhole := by
  obtain ⟨port, hp, -, ⟨code, rfl⟩ | ⟨-, -, ⟨-, -, rfl⟩ | ⟨-, -, -, rfl⟩ | ⟨-, rfl⟩⟩⟩ := exec_next h <;>
    exact streamsWhole_of_set hs rfl (hs s.cur port hp)

theorem streamsWhole_of_admitIllegal {hdr : Header} (hs : s.StreamsWhole) (h : s.admitIllegal hdr = .next t) :
    t.StreamsWhole := by
  obtain ⟨port, hp, -, ⟨rfl, -⟩ | ⟨rfl, -⟩ | ⟨rfl, -⟩⟩ := admission_next h <;>
    exact streamsWhole_of_set hs rfl (hs s.cur port hp)

/-- ADMIT takes the first record off its stream (R170). -/
theorem streamsWhole_of_admitReq (hs : s.StreamsWhole) (hg : s.canAdmit p = true) (h : s.admitReq p = .next t) :
    t.StreamsWhole := by
  obtain ⟨port, r, rest, hp, -, hin, -, hx⟩ := admit_next hg h
  have hpres : (s.present p port rest).StreamsWhole :=
    streamsWhole_of_set hs rfl fun r' hr' => hs p port hp r' (hin ▸ List.mem_cons_of_mem r hr')
  obtain ⟨i, -, hx⟩ | ⟨-, hx⟩ := hx
  · exact streamsWhole_of_exec hpres hx
  · exact streamsWhole_of_admitIllegal hpres hx

/-- The host issues whole records (R217). -/
theorem streamsWhole_issue {r : Record} (hs : s.StreamsWhole) (hr : r.whole = true) : (s.issue p r).StreamsWhole := by
  unfold State.issue
  split
  · exact hs
  · rename_i port hp
    refine streamsWhole_of_set hs rfl fun r' hr' => ?_
    obtain hr' | rfl : r' ∈ port.input ∨ r' = r := by simpa using hr'
    · exact hs p port hp r' hr'
    · exact hr

theorem streamsWhole_accept (hs : s.StreamsWhole) (hg : s.canAccept p = true) : (s.accept p).StreamsWhole := by
  obtain ⟨port, port', tw, hp, -, -, hports, -, -, -, ⟨rfl, -⟩ | ⟨rfl, -⟩⟩ := accept_effect hg <;>
    exact streamsWhole_of_set hs hports (hs p port hp)

/-- Every enabled move (R178). -/
theorem streamsWhole_of_perform {m : Move} (hs : s.StreamsWhole) (hg : s.enabled m = true)
    (h : s.perform m = .next t) : t.StreamsWhole := by
  cases m with
  | send p r => cases h; exact streamsWhole_issue hs hg
  | admitReq p => exact streamsWhole_of_admitReq hs hg h
  | closeEffect p =>
    cases h
    exact streamsWhole_of_map hs (fun q => closePorts_getElem? p q s.ports) fun q port => by split <;> simp
  | accept p => cases h; exact streamsWhole_accept hs hg
  | endHi => obtain ⟨-, rfl⟩ := endHi_next h; exact hs
  | endLo => obtain ⟨-, rfl⟩ := endLo_next h; exact hs
  | endHold | exit | busDone | tick => cases h; exact hs
  | reset c => cases h; exact streamsWhole_of_map hs (fun _ => List.getElem?_map) fun _ _ => rfl

theorem streamsWhole_of_step (hs : s.StreamsWhole) (h : step s = .next t) : t.StreamsWhole := by
  have hadv : s.advance.StreamsWhole := by simpa [State.StreamsWhole] using hs
  obtain ⟨-, rfl⟩ | ⟨hg, hx⟩ := step_next h
  · exact hadv
  · exact streamsWhole_of_perform hadv hg hx

end Sys2Proof.Machine
end

section
/-!
PROOF. The invariant of the block, move by move (spec/10_state.md rules R34 to R49). A move that leaves a field of the
invariant as it was hands on that field's proof as it stands; so a proof below names only the fields its move touches,
which for ACCEPT and for reset are nearly all.
-/

namespace Sys2Proof.Machine

variable {s t : State} {p : Nat} {port port' : Port}

/-! ## One sequencer -/

theorem portOk_idle (h : port.state = .idle) :
    s.portOk p port = true ↔ port.units = [] ∧ port.idx = 0 := by
  simp [State.portOk, h]

theorem portOk_closeWait (h : port.state = .closeWait) :
    s.portOk p port = true ↔ s.cfgErr = false ∧ port.units = [] ∧ port.idx = 0 := by
  simp [State.portOk, h, and_assoc]

theorem portOk_run (h : port.state = .run) :
    s.portOk p port = true ↔ s.cfgErr = false ∧ s.initStarted = true ∧ (port.op = opcode .init ∨ s.initDone = true) ∧
      port.idx < port.units.length ∧ port.units.length ≤ 512 ∧ (∀ tw ∈ port.units, payloadOk s.pinMap tw = true) ∧
      (if s.lock = some p then secondNext (port.units.drop port.idx) else isUnits (port.units.drop port.idx)) = true := by
  simp [State.portOk, h, and_assoc]

/-- Only a block without `CFG_ERR` has a request outstanding (R155). -/
theorem cfgErr_of_busy (hok : s.portOk p port = true) (hb : port.state ≠ .idle) : s.cfgErr = false := by
  cases hs : port.state with
  | idle => exact absurd hs hb
  | run => obtain ⟨hc, -⟩ := (portOk_run hs).1 hok; exact hc
  | closeWait => obtain ⟨hc, -⟩ := (portOk_closeWait hs).1 hok; exact hc

/-- A sequencer stays in order where the configuration and the set flags stay and the lock is its port's as before. -/
theorem portOk_of_persists (hst : s.Persists t) (hl : t.lock = some p ↔ s.lock = some p)
    (hok : s.portOk p port = true) : t.portOk p port = true := by
  obtain ⟨hpm, -, -, hce⟩ := hst.config
  cases hs : port.state with
  | idle => rwa [portOk_idle hs] at hok ⊢
  | closeWait => rwa [portOk_closeWait hs, ← hce, ← portOk_closeWait hs] at hok
  | run =>
    obtain ⟨hc, hi, hd, hidx, hlen, hpay, hunits⟩ := (portOk_run hs).1 hok
    rw [portOk_run hs, hpm, hce, if_congr hl rfl rfl]
    exact ⟨hc, hst.initStarted hi, hd.imp_right hst.initDone, hidx, hlen, hpay, hunits⟩

/-! ## What the invariant says of a state at once -/

/-- A phase other than `IDLE` is reached only without `CFG_ERR` (R155). -/
theorem State.Inv.cfgErr_of_phase (h : s.Inv) (hph : s.phase ≠ .idle) : s.cfgErr = false := by
  refine Bool.eq_false_iff.2 fun hc => ?_
  obtain ⟨-, -, hidle, -⟩ := h.cfgQuiet hc
  exact hph hidle

/-- A bus write is pending between ACCEPT and END_LO alone (R69). -/
theorem State.Inv.not_pending (h : s.Inv) (hhi : s.phase ≠ .wrHi) (hlo : s.phase ≠ .wrLo) : s.busPending = false :=
  Bool.eq_false_iff.2 fun hb => (h.pendingPhase hb).elim hhi hlo

/-- An idle port does not hold the lock (R47). -/
theorem State.Inv.lock_ne_of_idle (h : s.Inv) (hp : s.ports[p]? = some port) (hi : port.state = .idle) :
    s.lock ≠ some p := by
  intro hl
  obtain ⟨holder, hh, hrun⟩ := h.lockRuns p hl
  cases hp.symm.trans hh
  cases hi.symm.trans hrun

/-! ## The host, the bus and the time -/

theorem inv_advance (h : s.Inv) : s.advance.Inv := by
  unfold State.advance
  split <;> exact { h with }

theorem inv_busDone (h : s.Inv) : s.busDone.Inv :=
  { h with
    cfgQuiet := fun hc => by
      obtain ⟨hi, hcl, hph, -⟩ := h.cfgQuiet hc
      exact ⟨hi, hcl, hph, rfl⟩
    pendingPhase := nofun
    pendingHi := nofun
    pendingLo := nofun }

theorem inv_tick (h : s.Inv) (n : Nat) : (s.tick n).Inv := { h with }

/-- Writing a port keeps the invariant where the new sequencer is in order, a running one still runs (it may hold the
lock), and after CLOSE it is idle. -/
theorem inv_setPort (h : s.Inv) (hp : s.ports[p]? = some port) (hok : s.portOk p port' = true)
    (hrun : port.state = .run → port'.state = .run) (hclosed : s.closed = true → port'.state = .idle) :
    (s.setPort p port').Inv :=
  { h with
    hasPort := by simpa using h.hasPort
    lockRuns := fun q hq => by
      obtain ⟨holder, hh, hr⟩ := h.lockRuns q hq
      by_cases hqp : q = p
      · subst hqp
        cases hp.symm.trans hh
        exact ⟨port', setPort_getElem?_self hp, hrun hr⟩
      · exact ⟨holder, (setPort_getElem?_ne hqp).trans hh, hr⟩
    closedQuiet := fun hc => by
      obtain ⟨hl, hidle⟩ := h.closedQuiet hc
      exact ⟨hl, forall_port_set (hclosed hc) fun q port _ => hidle q port⟩
    portsOk := forall_port_set hok fun q port _ => h.portsOk q port }

/-- Writing what the sequencer does not read: the stream of a port, or its responses. -/
theorem inv_setPort_sameSequencer (h : s.Inv) (hp : s.ports[p]? = some port) (hst : port'.state = port.state := by rfl)
    (hok : s.portOk p port' = s.portOk p port := by rfl) : (s.setPort p port').Inv := by
  refine inv_setPort h hp (hok.trans (h.portsOk p port hp)) (fun hr => hst.trans hr) fun hc => ?_
  obtain ⟨-, hidle⟩ := h.closedQuiet hc
  exact hst.trans (hidle p port hp)

theorem inv_issue (h : s.Inv) (r : Record) : (s.issue p r).Inv := by
  unfold State.issue
  split
  · exact h
  · exact inv_setPort_sameSequencer h ‹_›

/-! ## Admission -/

theorem inv_present (h : s.Inv) (hp : s.ports[p]? = some port) (rest : List Record) : (s.present p port rest).Inv :=
  have hcur : ({ s with cur := p } : State).Inv := { h with }
  inv_setPort_sameSequencer hcur hp

theorem inv_reject (h : s.Inv) (hp : s.ports[s.cur]? = some port) (r : Request) (code : Status) :
    (s.reject port r code).Inv :=
  inv_setPort_sameSequencer h hp

theorem inv_setInitStarted (h : s.Inv) (hc : s.cfgErr = false) : s.setInitStarted.Inv :=
  { h with
    cfgQuiet := fun hc' => nomatch hc.symm.trans hc'
    doneStarted := fun _ => rfl
    portsOk := fun q port hq => portOk_of_persists (persists_setInitStarted s) Iff.rfl (h.portsOk q port hq) }

/-- An admitted request's sequencer starts in order: its expansion is made of well-built units (R120, R170). -/
theorem inv_start {i : Instr} {r : Request} (h : s.Inv) (hp : s.ports[s.cur]? = some port) (hidle : port.state = .idle)
    (hc : s.cfgErr = false) (hcl : s.closed = false) (hs : s.initStarted = true)
    (hd : opcode i = opcode .init ∨ s.initDone = true) (hw : wellFormed i = true) (hi : i ≠ .close) :
    (s.start port r (opcode i) (expand s.pinMap i)).Inv := by
  have hpm : pinMapOk s.pinMap = true := by
    have hcfg : cfgOk s.pinMap s.busAddr = true := by simpa [hc] using h.cfgErr
    simp only [cfgOk, Bool.and_eq_true] at hcfg
    exact hcfg.1
  obtain ⟨hpos, hlen⟩ := expand_length (pm := s.pinMap) hw hi
  refine inv_setPort h hp ((portOk_run rfl).2 ⟨hc, hs, hd, hpos, hlen, fun tw => payloadOk_of_mem_expand hpm, ?_⟩)
    (fun _ => rfl) fun hcl' => nomatch hcl.symm.trans hcl'
  rw [if_neg (h.lock_ne_of_idle hp hidle)]
  exact isUnits_expand i

/-- A request's meaning, rejected or admitted (R170). -/
theorem inv_of_exec {i : Instr} (h : s.Inv) (hw : wellFormed i = true) (hx : exec i s = .next t) : t.Inv := by
  obtain ⟨port, hp, hidle, ⟨code, rfl⟩ | ⟨hc, hcl, ⟨rfl, -, rfl⟩ | ⟨-, hi, hd, rfl⟩ | ⟨-, rfl⟩⟩⟩ := exec_next hx
  · exact inv_reject h hp _ code
  · exact inv_start (inv_setInitStarted h hc) hp hidle hc hcl rfl (.inl rfl) hw nofun
  · exact inv_start h hp hidle hc hcl (h.doneStarted hd) (.inr hd) hw hi
  · have hempty := (portOk_idle hidle).1 (h.portsOk s.cur port hp)
    exact inv_setPort h hp ((portOk_closeWait rfl).2 ⟨hc, hempty⟩) (fun hr => nomatch hidle.symm.trans hr)
      fun hcl' => nomatch hcl.symm.trans hcl'

theorem inv_of_admitIllegal {hdr : Header} (h : s.Inv) (hx : s.admitIllegal hdr = .next t) : t.Inv := by
  obtain ⟨port, hp, -, ⟨rfl, -⟩ | ⟨rfl, -⟩ | ⟨rfl, -⟩⟩ := admission_next hx <;> exact inv_reject h hp ..

theorem inv_of_admitReq (h : s.Inv) (hg : s.canAdmit p = true) (hx : s.admitReq p = .next t) : t.Inv := by
  obtain ⟨port, r, rest, hp, -, -, hw, ⟨i, hr, hx⟩ | ⟨-, hx⟩⟩ := admit_next hg hx
  · exact inv_of_exec (inv_present h hp rest) (wellFormed_of_whole hw hr) hx
  · exact inv_of_admitIllegal (inv_present h hp rest) hx

/-! ## ACCEPT -/

/-- The byte ACCEPT writes is the accepted payload with the enable bit set (R142). -/
theorem accept_bus (hg : s.canAccept p = true) :
    (s.accept p).busPending = true ∧
      (s.accept p).busData = setBit (s.accept p).slot.payload (ePos (s.accept p).pinMap) := by
  obtain ⟨port, tw, -, -, -, -, -, -, -, he⟩ := accept_of_canAccept hg
  rw [he]
  split <;> simp

/-- HEART OF THE PAIR LOCK (R47, R120, R142): acceptance either opens a pair, whose second half comes next, or ends a unit,
and then the lock is free. -/
theorem lockAfter_of_portOk {tw : TimedWrite} (hok : s.portOk p port = true) (hr : port.state = .run)
    (hl : s.lock = none ∨ s.lock = some p) (hu : port.units[port.idx]? = some tw) :
    lockAfter s.lock p tw.pair = some p ∧ secondNext (port.units.drop (port.idx + 1)) = true ∨
      lockAfter s.lock p tw.pair = none ∧ isUnits (port.units.drop (port.idx + 1)) = true := by
  obtain ⟨-, -, -, -, -, -, hunits⟩ := (portOk_run hr).1 hok
  rw [drop_of_getElem? hu] at hunits
  obtain hl | hl := hl
  · simp only [hl, reduceCtorEq, if_false] at hunits ⊢
    cases hpair : tw.pair with
    | none => exact .inr ⟨rfl, by simpa [isUnits, hpair] using hunits⟩
    | first =>
      refine .inl ⟨rfl, ?_⟩
      cases hrest : port.units.drop (port.idx + 1) <;> simp_all [isUnits, secondNext]
    | second => simp [isUnits, hpair] at hunits
  · simp only [hl, if_true, secondNext, Bool.and_eq_true, beq_iff_eq] at hunits ⊢
    obtain ⟨hpair, hrest⟩ := hunits
    exact .inr ⟨by rw [hpair]; rfl, hrest⟩

/-- The accepting port afterwards: back to idle after its last TimedWrite, and holding no lock then, or running on
between two units or in the middle of the pair it has opened (R142, R144). -/
theorem portOk_accepted {tw : TimedWrite} (hok : s.portOk p port = true) (hr : port.state = .run)
    (hl : s.lock = none ∨ s.lock = some p) (hu : port.units[port.idx]? = some tw) (hst : s.Persists t)
    (hlock : t.lock = lockAfter s.lock p tw.pair)
    (hport' : port' = port.finish .ok ∧ port.idx + 1 = port.units.length ∨
      port' = { port with idx := port.idx + 1 } ∧ port.idx + 1 ≠ port.units.length) :
    t.portOk p port' = true ∧ (t.lock = none ∨ t.lock = some p ∧ port'.state = .run) := by
  have hnext := lockAfter_of_portOk hok hr hl hu
  rw [← hlock] at hnext
  obtain ⟨rfl, hlast⟩ | ⟨rfl, hmore⟩ := hport'
  · rw [hlast, List.drop_length] at hnext
    obtain ⟨-, hpair⟩ | ⟨hfree, -⟩ := hnext
    · cases hpair
    · exact ⟨(portOk_idle rfl).2 ⟨rfl, rfl⟩, .inl hfree⟩
  · obtain ⟨hc, hi, hd, hidx, hlen, hpay, -⟩ := (portOk_run hr).1 hok
    obtain ⟨hpm, -, -, hce⟩ := hst.config
    have hlt : port.idx + 1 < port.units.length := Nat.lt_of_le_of_ne hidx hmore
    have hrest : (if t.lock = some p then secondNext (port.units.drop (port.idx + 1))
        else isUnits (port.units.drop (port.idx + 1))) = true := by
      obtain ⟨hheld, hpair⟩ | ⟨hfree, hunits⟩ := hnext
      · rwa [if_pos hheld]
      · rwa [if_neg (by simp [hfree])]
    have hrun : ({ port with idx := port.idx + 1 } : Port).state = .run := hr
    have hok' : t.portOk p { port with idx := port.idx + 1 } = true :=
      (portOk_run hrun).2 ⟨hce.trans hc, hst.initStarted hi, hd.imp_right hst.initDone, hlt, hlen, hpm ▸ hpay, hrest⟩
    exact ⟨hok', hnext.symm.imp And.left fun ⟨hheld, _⟩ => ⟨hheld, hrun⟩⟩

/-- ACCEPT (R142, R144). -/
theorem inv_accept (h : s.Inv) (hg : s.canAccept p = true) : (s.accept p).Inv := by
  obtain ⟨port, port', tw, hp, hr, hu, hports, hlock, hslot, hphase, hport'⟩ := accept_effect hg
  obtain ⟨-, -, he⟩ := canAccept_iff.1 hg
  obtain ⟨-, -, -, -, hl, hopen⟩ := eligible_iff.1 he
  obtain ⟨hpending, hbyte⟩ := accept_bus hg
  have hst : s.Persists (s.accept p) := persists_accept hg
  obtain ⟨hpm, -, hba, hce⟩ := hst.config
  obtain ⟨-, -, hclosed, -⟩ := accept_frame hg
  obtain ⟨hc, hi, -, -, -, hpay, -⟩ := (portOk_run hr).1 (h.portsOk p port hp)
  obtain ⟨hok', hlock'⟩ := portOk_accepted (h.portsOk p port hp) hr hl hu hst hlock hport'
  have hp' : (s.accept p).ports[p]? = some port' := hports ▸ setPort_getElem?_self hp
  exact {
    hasPort := by simpa [hports] using h.hasPort
    cfgErr := by rw [hce, hpm, hba, h.cfgErr]
    cfgQuiet := fun hc' => nomatch (hce.trans hc).symm.trans hc'
    doneStarted := fun _ => hst.initStarted hi
    slotValid := by rw [hslot, hphase]; rfl
    slotOk := fun _ => by rw [hslot, hpm]; exact hpay tw (List.mem_of_getElem? hu)
    pendingPhase := fun _ => .inl hphase
    pendingHi := fun _ _ => hbyte
    pendingLo := fun _ hlo => nomatch hphase.symm.trans hlo
    lockRuns := fun q hq => by
      obtain hfree | ⟨hheld, hrun⟩ := hlock'
      · cases hfree.symm.trans hq
      · obtain rfl : p = q := by simpa using hheld.symm.trans hq
        exact ⟨port', hp', hrun⟩
    closedQuiet := fun hcl => nomatch (hclosed.trans hopen).symm.trans hcl
    exitedClosed := fun hex => nomatch hphase.symm.trans hex
    portsOk := by
      rw [hports]
      refine forall_port_set hok' fun q other hq hother => portOk_of_persists hst ?_ (h.portsOk q other hother)
      have hfree : s.lock ≠ some q := by obtain hl | hl := hl <;> simp [hl, hq.symm]
      have hfree' : (s.accept p).lock ≠ some q := by obtain hl | ⟨hl, -⟩ := hlock' <;> simp [hl, hq.symm]
      exact iff_of_false hfree' hfree }

/-! ## The dispatcher's other steps -/

theorem inv_of_endHi (h : s.Inv) (hg : s.canEndHi = true) (hx : s.endHi = .next t) : t.Inv := by
  obtain ⟨hv, rfl⟩ := endHi_next hx
  obtain ⟨hph, -⟩ : s.phase = .wrHi ∧ s.busPending = false := by simpa [State.canEndHi] using hg
  have hc : s.cfgErr = false := h.cfgErr_of_phase (by simp [hph])
  exact { h with
    cfgQuiet := fun hc' => nomatch hc.symm.trans hc'
    slotValid := hv
    pendingPhase := fun _ => .inr rfl
    pendingHi := fun _ => nofun
    pendingLo := fun _ _ => rfl
    exitedClosed := nofun }

theorem inv_of_endLo (h : s.Inv) (hg : s.canEndLo = true) (hx : s.endLo = .next t) : t.Inv := by
  obtain ⟨hv, rfl⟩ := endLo_next hx
  obtain ⟨hph, hb⟩ : s.phase = .wrLo ∧ s.busPending = false := by simpa [State.canEndLo] using hg
  have hc : s.cfgErr = false := h.cfgErr_of_phase (by simp [hph])
  exact { h with
    cfgQuiet := fun hc' => nomatch hc.symm.trans hc'
    slotValid := hv
    pendingPhase := fun hb' => nomatch hb.symm.trans hb'
    pendingHi := fun _ => nofun
    pendingLo := fun _ => nofun
    exitedClosed := nofun }

theorem inv_endHold (h : s.Inv) (hg : s.canEndHold = true) : s.endHold.Inv := by
  obtain ⟨hph, -⟩ : s.phase = .hold ∧ s.holdUntil ≤ s.nowUs := by simpa [State.canEndHold] using hg
  have hc : s.cfgErr = false := h.cfgErr_of_phase (by simp [hph])
  have hb : s.busPending = false := h.not_pending (by simp [hph]) (by simp [hph])
  exact { h with
    cfgQuiet := fun hc' => nomatch hc.symm.trans hc'
    slotValid := by cases hcl : s.closed <;> simp [hcl, Phase.holdsWrite]
    slotOk := nofun
    pendingPhase := fun hb' => nomatch hb.symm.trans hb'
    pendingHi := fun hb' => nomatch hb.symm.trans hb'
    pendingLo := fun hb' => nomatch hb.symm.trans hb'
    exitedClosed := fun hex => by cases hcl : s.closed <;> simp_all }

theorem inv_exitLoop (h : s.Inv) (hg : s.canExit = true) : s.exitLoop.Inv := by
  obtain ⟨hph, hcl⟩ : s.phase = .idle ∧ s.closed = true := by simpa [State.canExit] using hg
  have hb : s.busPending = false := h.not_pending (by simp [hph]) (by simp [hph])
  exact { h with
    cfgQuiet := fun hc => by
      obtain ⟨-, hcl', -⟩ := h.cfgQuiet hc
      cases hcl.symm.trans hcl'
    slotValid := h.slotValid.trans (by rw [hph]; rfl)
    pendingPhase := fun hb' => nomatch hb.symm.trans hb'
    pendingHi := fun _ => nofun
    pendingLo := fun _ => nofun
    exitedClosed := fun _ => hcl }

/-! ## CLOSE taking effect -/

/-- CLOSE_EFFECT leaves every port idle and its sequencer empty (R176, R203). -/
theorem closePorts_idle (h : s.Inv) (hp : s.ports[p]? = some port) (hw : port.state = .closeWait) :
    ∀ (q : Nat) (port' : Port), (closePorts p s.ports)[q]? = some port' →
      port'.state = .idle ∧ port'.units = [] ∧ port'.idx = 0 := by
  intro q port' hq
  rw [closePorts_getElem?, Option.map_eq_some_iff] at hq
  obtain ⟨port₀, hq, rfl⟩ := hq
  have hok := h.portsOk q port₀ hq
  split
  · subst q
    cases hp.symm.trans hq
    obtain ⟨-, hempty⟩ := (portOk_closeWait hw).1 hok
    exact ⟨rfl, hempty⟩
  · by_cases hidle : port₀.state = .idle
    · rw [cutOff_of_idle hidle]
      exact ⟨hidle, (portOk_idle hidle).1 hok⟩
    · rw [cutOff_of_busy hidle]
      exact ⟨rfl, rfl, rfl⟩

theorem inv_closeEffect (h : s.Inv) (hg : s.canClose p = true) : (s.closeEffect p).Inv := by
  obtain ⟨port, hp, hw, hl, -⟩ := canClose_iff.1 hg
  have hc : s.cfgErr = false := cfgErr_of_busy (h.portsOk p port hp) (by simp [hw])
  have hports := closePorts_idle h hp hw
  exact { h with
    hasPort := List.ne_nil_of_length_pos (by simpa using List.length_pos_iff.2 h.hasPort)
    cfgQuiet := fun hc' => nomatch hc.symm.trans hc'
    lockRuns := fun q hq => nomatch hl.symm.trans hq
    closedQuiet := fun _ => ⟨hl, fun q port' hq => (hports q port' hq).1⟩
    exitedClosed := fun _ => rfl
    portsOk := fun q port' hq => by
      obtain ⟨hidle, hempty⟩ := hports q port' hq
      exact (portOk_idle hidle).2 hempty }

/-! ## Reset -/

/-- At the reset values, whatever streams and responses the ports have: every sequencer is idle and empty (R230). -/
theorem inv_resetWith {nprod : Nat} {c : Params} {ports : List Port} (hne : ports ≠ [])
    (hports : ∀ port ∈ ports, port.state = .idle ∧ port.units = [] ∧ port.idx = 0) :
    ({ State.resetWith nprod c with ports := ports } : State).Inv where
  hasPort := hne
  cfgErr := rfl
  cfgQuiet := fun _ => ⟨rfl, rfl, rfl, rfl⟩
  doneStarted := nofun
  slotValid := rfl
  slotOk := nofun
  pendingPhase := nofun
  pendingHi := nofun
  pendingLo := nofun
  lockRuns := nofun
  closedQuiet := nofun
  exitedClosed := nofun
  portsOk := fun q port hq => by
    obtain ⟨hidle, hempty⟩ := hports port (List.mem_of_getElem? hq)
    exact (portOk_idle hidle).2 hempty

theorem inv_resetRunning (h : s.Inv) (c : Params) : (s.resetRunning c).Inv := by
  have hreset := inv_resetWith (nprod := s.ports.length) (c := c) (ports := s.ports.map Port.resetRunning)
    (by simpa using h.hasPort) (by simp)
  exact { hreset with }

/-! ## The step -/

/-- Every enabled move (R178). -/
theorem inv_of_perform {m : Move} (h : s.Inv) (hg : s.enabled m = true) (hx : s.perform m = .next t) : t.Inv := by
  cases m with
  | send p r => cases hx; exact inv_issue h r
  | admitReq p => exact inv_of_admitReq h hg hx
  | closeEffect p => cases hx; exact inv_closeEffect h hg
  | accept p => cases hx; exact inv_accept h hg
  | endHi => exact inv_of_endHi h hg hx
  | endLo => exact inv_of_endLo h hg hx
  | endHold => cases hx; exact inv_endHold h hg
  | exit => cases hx; exact inv_exitLoop h hg
  | busDone => cases hx; exact inv_busDone h
  | tick n => cases hx; exact inv_tick h n
  | reset c => cases hx; exact inv_resetRunning h c

theorem inv_of_step (h : s.Inv) (hx : step s = .next t) : t.Inv := by
  obtain ⟨-, rfl⟩ | ⟨hg, hx⟩ := step_next hx
  · exact inv_advance h
  · exact inv_of_perform (inv_advance h) hg hx

/-- Settles O46: the invariant move by move, and the streams move by move. -/
theorem everyStepKeepsTheInvariant : Obligations.EveryStepKeepsTheInvariant :=
  fun _ _ hx => ⟨fun h => inv_of_step h hx, fun hs => streamsWhole_of_step hs hx⟩

end Sys2Proof.Machine
end

section
/-!
PROOF. What a step leaves alone: admission and the host write one port, and neither the dispatcher nor the bus nor `CLOSED`
(spec/43_session_requests.md rules R170, R207; spec/10_state.md R43).
-/

namespace Sys2Proof.Machine

variable {s t u : State} {p : Nat}

/-- From `s` to `t` port `p` may be written, but no other port, nothing of the dispatcher or the bus, and not `CLOSED`. -/
structure State.WritesPortOnly (p : Nat) (s t : State) : Prop where
  dispatcher : s.SameDispatcher t
  bus : s.SameBus t
  closed : t.closed = s.closed
  ports : s.SamePortsBut p t

theorem State.WritesPortOnly.trans (h : s.WritesPortOnly p t) (h' : t.WritesPortOnly p u) : s.WritesPortOnly p u where
  dispatcher := by
    obtain ⟨hslot, hphase, hlock, hhold⟩ := h.dispatcher
    obtain ⟨hslot', hphase', hlock', hhold'⟩ := h'.dispatcher
    exact ⟨hslot'.trans hslot, hphase'.trans hphase, hlock'.trans hlock, hhold'.trans hhold⟩
  bus := by
    obtain ⟨hpending, hdata, htrace⟩ := h.bus
    obtain ⟨hpending', hdata', htrace'⟩ := h'.bus
    exact ⟨hpending'.trans hpending, hdata'.trans hdata, htrace'.trans htrace⟩
  closed := h'.closed.trans h.closed
  ports := by
    obtain ⟨hlen, hother⟩ := h.ports
    obtain ⟨hlen', hother'⟩ := h'.ports
    exact ⟨hlen'.trans hlen, fun q hq => (hother' q hq).trans (hother q hq)⟩

theorem writesPortOnly_setPort (s : State) (p : Nat) (port : Port) : s.WritesPortOnly p (s.setPort p port) :=
  ⟨⟨rfl, rfl, rfl, rfl⟩, ⟨rfl, rfl, rfl⟩, rfl, samePortsBut_setPort rfl⟩

theorem writesPortOnly_present (s : State) (p : Nat) (port : Port) (rest : List Record) :
    s.WritesPortOnly p (s.present p port rest) :=
  ⟨⟨rfl, rfl, rfl, rfl⟩, ⟨rfl, rfl, rfl⟩, rfl, samePortsBut_setPort rfl⟩

/-- A request's meaning, rejected or admitted (R170, R207). -/
theorem writesPortOnly_of_exec {i : Instr} (h : exec i s = .next t) : s.WritesPortOnly s.cur t := by
  obtain ⟨port, -, -, ⟨code, rfl⟩ | ⟨-, -, ⟨-, -, rfl⟩ | ⟨-, -, -, rfl⟩ | ⟨-, rfl⟩⟩⟩ := exec_next h
  · exact writesPortOnly_setPort ..
  · exact ⟨⟨rfl, rfl, rfl, rfl⟩, ⟨rfl, rfl, rfl⟩, rfl, samePortsBut_setPort rfl⟩
  · exact writesPortOnly_setPort ..
  · exact writesPortOnly_setPort ..

theorem writesPortOnly_of_admitIllegal {hdr : Header} (h : s.admitIllegal hdr = .next t) :
    s.WritesPortOnly s.cur t := by
  obtain ⟨port, -, -, ⟨rfl, -⟩ | ⟨rfl, -⟩ | ⟨rfl, -⟩⟩ := admission_next h <;> exact writesPortOnly_setPort ..

/-- ADMIT (R170). -/
theorem writesPortOnly_of_admitReq (hg : s.canAdmit p = true) (h : s.admitReq p = .next t) : s.WritesPortOnly p t := by
  obtain ⟨port, r, rest, -, -, -, -, ⟨i, -, hx⟩ | ⟨-, hx⟩⟩ := admit_next hg h
  · exact (writesPortOnly_present s p port rest).trans (writesPortOnly_of_exec hx)
  · exact (writesPortOnly_present s p port rest).trans (writesPortOnly_of_admitIllegal hx)

/-- What the host issues (R43, R217). -/
theorem writesPortOnly_issue (s : State) (p : Nat) (r : Record) : s.WritesPortOnly p (s.issue p r) := by
  obtain ⟨-, ⟨-, -, hclosed⟩, hdispatcher, hbus, -, hports, -⟩ := issue_frame (s := s) p r
  exact ⟨hdispatcher, hbus, hclosed, hports⟩

end Sys2Proof.Machine
end

section
/-!
PROOF. The bus trace as a sequence of enable pulses (spec/20_memory.md rules R65, R74, R78; spec/42_dispatcher.md rules
R142 to R147). A trace of even length is whole pulses, so what is put after it is judged on its own, from the last
enable-low completion on; the trace grows by BUS_DONE alone, in `WR_HI` after whole pulses and in `WR_LO` after the slot's
own enable-high byte.
-/

namespace Sys2Proof.Machine

variable {s t : State} {p : Nat}

/-! ## Whole pulses with more behind them -/

theorem pulsesOk_append {pm : PinMap} {trace : List (Byte × Nat)} (more : List (Byte × Nat))
    (heven : trace.length % 2 = 0) : pulsesOk pm (trace ++ more) = (pulsesOk pm trace && pulsesOk pm more) := by
  induction trace using pulsesOk.induct with
  | case1 => rfl
  | case2 hi => cases heven
  | case3 hi lo rest ih =>
    have ih := ih ((Nat.add_mod_right rest.length 2).symm.trans heven)
    simp [pulsesOk, ih, Bool.and_assoc]

theorem lastLow_append {prev : Option Nat} {trace : List (Byte × Nat)} (more : List (Byte × Nat))
    (heven : trace.length % 2 = 0) : lastLow prev (trace ++ more) = lastLow (lastLow prev trace) more := by
  induction prev, trace using lastLow.induct with
  | case1 prev => rfl
  | case2 prev hi => cases heven
  | case3 prev hi lo rest ih => exact ih ((Nat.add_mod_right rest.length 2).symm.trans heven)

theorem spacedFrom_append {prev : Option Nat} {trace : List (Byte × Nat)} (more : List (Byte × Nat))
    (heven : trace.length % 2 = 0) :
    spacedFrom prev (trace ++ more) = (spacedFrom prev trace && spacedFrom (lastLow prev trace) more) := by
  induction prev, trace using spacedFrom.induct with
  | case1 prev => rfl
  | case2 prev hi => cases heven
  | case3 prev hi lo rest ih =>
    have ih := ih ((Nat.add_mod_right rest.length 2).symm.trans heven)
    simp [spacedFrom, lastLow, ih, Bool.and_assoc]

/-- A trace of odd length is whole pulses and one byte. -/
theorem exists_pulses_of_odd {trace : List (Byte × Nat)} (hodd : trace.length % 2 = 1) :
    ∃ pulses hi, trace = pulses ++ [hi] ∧ pulses.length % 2 = 0 := by
  obtain rfl | ⟨pulses, hi, rfl⟩ := trace.eq_nil_or_concat
  · cases hodd
  · refine ⟨pulses, hi, by simp, ?_⟩
    simp at hodd
    omega

/-- The enable-low byte has the enable bit clear (R101, R145). -/
theorem hasBit_clearBit_self (v : Byte) (pos : Pos) : hasBit (clearBit v pos) pos = false := by
  simp [hasBit_eq_getLsbD, clearBit]

/-- The enable-low byte with the enable bit set is the enable-high byte (R100, R142, R145). -/
theorem setBit_clearBit_self (v : Byte) (pos : Pos) : setBit (clearBit v pos) pos = setBit v pos := by
  ext i hi
  simp only [setBit, clearBit, BitVec.getElem_or, BitVec.getElem_and, BitVec.getElem_not]
  cases (1#8 <<< pos.toNat)[i] <;> simp

/-- A time held off long enough stays so as time goes on. -/
theorem heldSince_mono {prev : Option Nat} {a b : Nat} (hab : a ≤ b) (h : heldSince prev a = true) :
    heldSince prev b = true := by
  cases prev with
  | none => rfl
  | some u =>
    simp only [heldSince, decide_eq_true_eq] at h ⊢
    omega

/-! ## The moves that leave dispatcher and bus alone -/

theorem traceInv_of_same (h : s.TraceInv) (hst : s.Persists t) (hd : s.SameDispatcher t) (hb : s.SameBus t) :
    t.TraceInv := by
  obtain ⟨hpm, -⟩ := hst.config
  obtain ⟨hslot, hphase, -, hhold⟩ := hd
  obtain ⟨hpending, -, htrace⟩ := hb
  constructor
  case pulses => rw [hpm, htrace]; exact h.pulses
  case spaced => rw [htrace]; exact h.spaced
  case halfPulse => rw [htrace, hphase, hpending]; exact h.halfPulse
  case halfByte => rw [htrace, hslot, hpm]; exact h.halfByte
  case lowPast => rw [htrace]; exact fun u hu => (h.lowPast u hu).trans hst.time
  case heldHold => rw [htrace, hphase, hhold]; exact h.heldHold
  case heldNow => rw [htrace, hphase]; exact fun hph => heldSince_mono hst.time (h.heldNow hph)

/-! ## The dispatcher's moves -/

/-- ACCEPT starts a pulse: before it the trace is whole pulses, long enough ago (R142, R74). -/
theorem traceInv_accept (h : s.TraceInv) (hg : s.canAccept p = true) : (s.accept p).TraceInv := by
  obtain ⟨hidle, -, -⟩ := canAccept_iff.1 hg
  obtain ⟨-, -, -, -, -, -, -, -, -, hphase, -⟩ := accept_effect hg
  obtain ⟨⟨hpm, -⟩, -, -, -, -, hnow, htrace, -⟩ := accept_frame hg
  obtain ⟨hpending, -⟩ := accept_bus hg
  have heven : ¬s.busTrace.length % 2 = 1 := h.halfPulse.not.2 (by simp [hidle])
  constructor
  case pulses => rw [hpm, htrace]; exact h.pulses
  case spaced => rw [htrace]; exact h.spaced
  case halfPulse => rw [htrace]; exact iff_of_false heven (by simp [hphase, hpending])
  case halfByte => rw [htrace]; exact fun hodd => absurd hodd heven
  case lowPast => rw [htrace, hnow]; exact h.lowPast
  case heldHold => exact fun hph => nomatch hphase.symm.trans hph
  case heldNow => rw [htrace, hnow]; exact fun _ => h.heldNow (.inl hidle)

/-- END_HI comes in the middle of a pulse, and the slot stays (R145). -/
theorem traceInv_of_endHi (h : s.TraceInv) (hg : s.canEndHi = true) (hx : s.endHi = .next t) : t.TraceInv := by
  obtain ⟨-, rfl⟩ := endHi_next hx
  have hhi : s.phase = .wrHi ∧ s.busPending = false := by simpa [State.canEndHi] using hg
  exact { h with
    halfPulse := iff_of_true (h.halfPulse.2 (.inl hhi)) (.inr ⟨rfl, rfl⟩)
    heldHold := nofun
    heldNow := by simp }

/-- END_LO sets the hold's end: the pulse is over, and the slot's hold is at least the shortest (R146, R90). -/
theorem traceInv_of_endLo (hi : s.Inv) (h : s.TraceInv) (hg : s.canEndLo = true) (hx : s.endLo = .next t) :
    t.TraceInv := by
  obtain ⟨hv, rfl⟩ := endLo_next hx
  obtain ⟨hph, hb⟩ : s.phase = .wrLo ∧ s.busPending = false := by simpa [State.canEndLo] using hg
  have heven : ¬s.busTrace.length % 2 = 1 := h.halfPulse.not.2 (by simp [hph, hb])
  have hhold : holdStdUs.toNat ≤ s.slot.hold.toNat := by
    have hok := hi.slotOk hv
    simp only [payloadOk, Bool.and_eq_true, Bool.or_eq_true, beq_iff_eq] at hok
    obtain ⟨-, hstd | hinit⟩ := hok
    · rw [hstd]
    · rw [hinit]; decide
  exact { h with
    halfPulse := iff_of_false heven (by simp)
    heldHold := fun _ => by
      cases hlow : lastLow none s.busTrace with
      | none => rfl
      | some u => exact decide_eq_true (Nat.add_le_add (h.lowPast u hlow) hhold)
    heldNow := by simp }

/-- END_HOLD waits for the hold's end (R147). -/
theorem traceInv_endHold (h : s.TraceInv) (hg : s.canEndHold = true) : s.endHold.TraceInv := by
  obtain ⟨hph, hnow⟩ : s.phase = .hold ∧ s.holdUntil ≤ s.nowUs := by simpa [State.canEndHold] using hg
  have heven : ¬s.busTrace.length % 2 = 1 := h.halfPulse.not.2 (by simp [hph])
  exact { h with
    halfPulse := iff_of_false heven (by cases hc : s.closed <;> simp [hc])
    heldHold := fun _ => h.heldHold hph
    heldNow := fun _ => heldSince_mono hnow (h.heldHold hph) }

theorem traceInv_exitLoop (h : s.TraceInv) (hg : s.canExit = true) : s.exitLoop.TraceInv := by
  obtain ⟨hph, -⟩ : s.phase = .idle ∧ s.closed = true := by simpa [State.canExit] using hg
  have heven : ¬s.busTrace.length % 2 = 1 := h.halfPulse.not.2 (by simp [hph])
  exact { h with
    halfPulse := iff_of_false heven (by simp)
    heldHold := nofun
    heldNow := fun _ => h.heldNow (.inl hph) }

/-! ## The bus completes a write -/

/-- The enable-high write completes: after whole pulses, and held off since the last of them (R142, R74). -/
theorem traceInv_busDone_of_wrHi (hi : s.Inv) (h : s.TraceInv) (hb : s.busPending = true) (hph : s.phase = .wrHi) :
    s.busDone.TraceInv := by
  have heven : s.busTrace.length % 2 = 0 := Nat.mod_two_ne_one.1 (h.halfPulse.not.2 (by simp [hph, hb]))
  have hheld := h.heldNow (.inr (.inr hph))
  have hlow : lastLow none s.busDone.busTrace = lastLow none s.busTrace := lastLow_append _ heven
  constructor
  case pulses =>
    simp [pulsesOk_append _ heven, h.pulses, pulsesOk, hi.pendingHi hb hph, hasBit_setBit]
  case spaced => simp [spacedFrom_append _ heven, h.spaced, spacedFrom, hheld]
  case halfPulse => exact iff_of_true (by simp; omega) (.inl ⟨hph, rfl⟩)
  case halfByte => simp [hi.pendingHi hb hph]
  case lowPast => rw [hlow]; exact h.lowPast
  case heldHold => exact fun hph' => nomatch hph.symm.trans hph'
  case heldNow => rw [hlow]; exact fun _ => hheld

/-- The enable-low write completes: the byte before it is the slot's with the enable bit set, and this one the same with it
cleared (R145, R65). -/
theorem traceInv_busDone_of_wrLo (hi : s.Inv) (h : s.TraceInv) (hb : s.busPending = true) (hph : s.phase = .wrLo) :
    s.busDone.TraceInv := by
  have hodd : s.busTrace.length % 2 = 1 := h.halfPulse.2 (.inr ⟨hph, hb⟩)
  obtain ⟨pulses, high, htrace, heven⟩ := exists_pulses_of_odd hodd
  have hbyte : high.1 = setBit s.slot.payload (ePos s.pinMap) := by simpa [htrace] using h.halfByte hodd
  obtain ⟨hpulses, -⟩ : pulsesOk s.pinMap pulses = true ∧ pulsesOk s.pinMap [high] = true := by
    simpa [htrace, pulsesOk_append _ heven] using h.pulses
  have hspaced : spacedFrom none pulses = true ∧ spacedFrom (lastLow none pulses) [high] = true := by
    simpa [htrace, spacedFrom_append _ heven] using h.spaced
  have htrace' : s.busDone.busTrace = pulses ++ [high, (s.busData, s.nowUs)] := by simp [htrace]
  have hlow : lastLow none s.busDone.busTrace = some s.nowUs := by rw [htrace', lastLow_append _ heven]; rfl
  constructor
  case pulses =>
    rw [htrace', pulsesOk_append _ heven]
    simp [hpulses, pulsesOk, hi.pendingLo hb hph, hbyte, setBit_clearBit_self, hasBit_clearBit_self]
  case spaced =>
    rw [htrace', spacedFrom_append _ heven]
    simpa [spacedFrom] using hspaced
  case halfPulse => exact iff_of_false (by simp; omega) (by simp [hph])
  case halfByte => exact fun hodd' => by simp at hodd'; omega
  case lowPast => rw [hlow]; rintro _ ⟨⟩; exact Nat.le_refl _
  case heldHold => exact fun hph' => nomatch hph.symm.trans hph'
  case heldNow => simp [hph]

/-! ## The step -/

/-- Every enabled move but reset (R178). -/
theorem traceInv_of_perform {m : Move} (hi : s.Inv) (h : s.TraceInv) (hm : ∀ c, m ≠ .reset c) (hg : s.enabled m = true)
    (hx : s.perform m = .next t) : t.TraceInv := by
  have hst : s.Persists t := persists_of_perform hm hg hx
  cases m with
  | send p r =>
    cases hx
    obtain ⟨hd, hb, -⟩ := writesPortOnly_issue s p r
    exact traceInv_of_same h hst hd hb
  | admitReq p =>
    obtain ⟨hd, hb, -⟩ := writesPortOnly_of_admitReq hg hx
    exact traceInv_of_same h hst hd hb
  | closeEffect | tick => cases hx; exact traceInv_of_same h hst ⟨rfl, rfl, rfl, rfl⟩ ⟨rfl, rfl, rfl⟩
  | accept p => cases hx; exact traceInv_accept h hg
  | endHi => exact traceInv_of_endHi h hg hx
  | endLo => exact traceInv_of_endLo hi h hg hx
  | endHold => cases hx; exact traceInv_endHold h hg
  | exit => cases hx; exact traceInv_exitLoop h hg
  | busDone =>
    cases hx
    obtain hhi | hlo := hi.pendingPhase hg
    · exact traceInv_busDone_of_wrHi hi h hg hhi
    · exact traceInv_busDone_of_wrLo hi h hg hlo
  | reset c => exact absurd rfl (hm c)

theorem traceInv_advance (h : s.TraceInv) : s.advance.TraceInv :=
  traceInv_of_same h (persists_advance s) (by simp [State.SameDispatcher]) (by simp [State.SameBus])

/-- Settles O54: a step but reset, passed over or move by move. -/
theorem everyStepKeepsTheTraceInvariant : Obligations.EveryStepKeepsTheTraceInvariant := by
  intro s t hi h hm hx
  obtain ⟨-, rfl⟩ | ⟨hg, hx⟩ := step_next hx
  · exact traceInv_advance h
  · exact traceInv_of_perform (inv_advance hi) (traceInv_advance h) hm hg hx

end Sys2Proof.Machine
end

section
/-!
PROOF. The pair lock (spec/20_memory.md rules R72, R76; spec/42_dispatcher.md rules R141 to R143): while producer `q` holds
it, `q` alone is eligible, and every step but the acceptance of `q`'s `SECOND` keeps the lock, `CLOSED` and each running
producer's place.
-/

namespace Sys2Proof.Machine

variable {s t : State} {q : Nat}

/-- While `q` holds the lock, CLOSE has not taken effect (R37, R176). -/
theorem State.Inv.open_of_locked (h : s.Inv) (hl : s.lock = some q) : s.closed = false := by
  refine Bool.eq_false_iff.2 fun hc => ?_
  obtain ⟨hfree, -⟩ := h.closedQuiet hc
  cases hl.symm.trans hfree

/-- While `q` holds the lock, `q` is the one eligible producer (R141). -/
theorem eligible_iff_of_locked (h : s.Inv) (hl : s.lock = some q) (p : Nat) : s.eligible p = true ↔ p = q := by
  constructor
  · intro he
    obtain ⟨-, -, -, -, hfree | hheld, -⟩ := eligible_iff.1 he
    · cases hl.symm.trans hfree
    · simpa using hheld.symm.trans hl
  · rintro rfl
    obtain ⟨port, hp, hr⟩ := h.lockRuns p hl
    obtain ⟨-, -, -, hidx, -⟩ := (portOk_run hr).1 (h.portsOk p port hp)
    exact eligible_iff.2 ⟨port, hp, hr, hidx, .inr hl, h.open_of_locked hl⟩

/-- From `s` to `t` nothing is handed over: the lock and `CLOSED` stay, and every running producer stays at its next
TimedWrite. -/
structure State.SameHandoff (s t : State) : Prop where
  lock : t.lock = s.lock
  closed : t.closed = s.closed
  running : ∀ (p : Nat) (port : Port), s.ports[p]? = some port → port.state = .run →
    ∃ port' : Port, t.ports[p]? = some port' ∧ port'.state = .run ∧ port'.idx = port.idx

theorem sameHandoff_of_samePorts (lock : t.lock = s.lock) (closed : t.closed = s.closed) (ports : t.ports = s.ports) :
    s.SameHandoff t :=
  ⟨lock, closed, fun _ port hp hr => ⟨port, ports ▸ hp, hr, rfl⟩⟩

/-- Writing port `p` alone hands nothing over where a running producer of that port stays at its next TimedWrite. -/
theorem sameHandoff_of_writesPortOnly {p : Nat} (hw : s.WritesPortOnly p t)
    (hself : ∀ port : Port, s.ports[p]? = some port → port.state = .run →
      ∃ port' : Port, t.ports[p]? = some port' ∧ port'.state = .run ∧ port'.idx = port.idx) : s.SameHandoff t := by
  obtain ⟨⟨-, -, hlock, -⟩, -, hclosed, -, hother⟩ := hw
  refine ⟨hlock, hclosed, fun q port hq hr => ?_⟩
  by_cases hqp : q = p
  · subst hqp
    exact hself port hq hr
  · exact ⟨port, (hother q hqp).trans hq, hr, rfl⟩

theorem sameHandoff_issue (s : State) (p : Nat) (r : Record) : s.SameHandoff (s.issue p r) := by
  obtain ⟨-, -, -, -, -, -, hself⟩ := issue_frame (s := s) p r
  exact sameHandoff_of_writesPortOnly (writesPortOnly_issue s p r) fun port hp hr => ⟨_, hself port hp, hr, rfl⟩

/-- ADMIT writes an idle port (R179). -/
theorem sameHandoff_of_admitReq {p : Nat} (hg : s.canAdmit p = true) (hx : s.admitReq p = .next t) :
    s.SameHandoff t := by
  obtain ⟨idlePort, -, -, hp, hidle, -⟩ := canAdmit_iff.1 hg
  refine sameHandoff_of_writesPortOnly (writesPortOnly_of_admitReq hg hx) fun port hp' hr => ?_
  cases hp.symm.trans hp'
  cases hidle.symm.trans hr

/-- Under the lock a CLOSE waits (R176), and no other move but ACCEPT and reset touches the handoff. -/
theorem sameHandoff_of_perform {m : Move} (hl : s.lock = some q) (hm : ∀ c, m ≠ .reset c) (ha : ∀ p, m ≠ .accept p)
    (hg : s.enabled m = true) (hx : s.perform m = .next t) : s.SameHandoff t := by
  cases m with
  | send p r => cases hx; exact sameHandoff_issue s p r
  | admitReq p => exact sameHandoff_of_admitReq hg hx
  | closeEffect p =>
    obtain ⟨-, -, -, hfree, -⟩ := canClose_iff.1 hg
    cases hl.symm.trans hfree
  | accept p => exact absurd rfl (ha p)
  | endHi => obtain ⟨-, rfl⟩ := endHi_next hx; exact sameHandoff_of_samePorts rfl rfl rfl
  | endLo => obtain ⟨-, rfl⟩ := endLo_next hx; exact sameHandoff_of_samePorts rfl rfl rfl
  | endHold | exit | busDone | tick => cases hx; exact sameHandoff_of_samePorts rfl rfl rfl
  | reset c => exact absurd rfl (hm c)

/-- The TimedWrite the lock's holder has next is the `SECOND` of its pair (R47, R120). -/
theorem pair_eq_second_of_locked {port : Port} {tw : TimedWrite} (h : s.Inv) (hl : s.lock = some q)
    (hp : s.ports[q]? = some port) (hr : port.state = .run) (hu : port.units[port.idx]? = some tw) :
    tw.pair = .second := by
  obtain ⟨-, -, -, -, -, -, hunits⟩ := (portOk_run hr).1 (h.portsOk q port hp)
  rw [if_pos hl, drop_of_getElem? hu, secondNext, Bool.and_eq_true, beq_iff_eq] at hunits
  obtain ⟨hpair, -⟩ := hunits
  exact hpair

/-- Under the lock ACCEPT takes the holder's `SECOND`, and with it releases the lock (R142). -/
theorem accept_of_locked {p : Nat} (h : s.Inv) (hl : s.lock = some q) (hg : s.canAccept p = true) :
    p = q ∧ s.SamePortsBut q (s.accept p) ∧ (s.accept p).closed = s.closed ∧ (s.accept p).lock = none ∧
      (s.accept p).slot.owner = q ∧ (s.accept p).slot.pair = .second ∧ (s.accept p).phase = .wrHi := by
  obtain ⟨-, -, he⟩ := canAccept_iff.1 hg
  obtain rfl := (eligible_iff_of_locked h hl p).1 he
  obtain ⟨port, port', tw, hp, hr, hu, hports, hlock, hslot, hphase, -⟩ := accept_effect hg
  obtain ⟨-, -, hclosed, -⟩ := accept_frame hg
  have hpair := pair_eq_second_of_locked h hl hp hr hu
  have hfree : (s.accept p).lock = none := by rw [hlock, hpair]; rfl
  exact ⟨rfl, samePortsBut_setPort hports, hclosed, hfree, by rw [hslot], by rw [hslot, hpair], hphase⟩

/-- A step but reset under the lock: a TimedWrite is accepted, or the handoff is as before (R72). -/
theorem step_of_locked (hl : s.lock = some q) (hm : ∀ c, s.nextMove ≠ .reset c) (hx : step s = .next t) :
    (∃ p, s.nextMove = .accept p ∧ s.advance.canAccept p = true ∧ t = s.advance.accept p) ∨ s.SameHandoff t := by
  have hadv : s.SameHandoff s.advance := sameHandoff_of_samePorts (by simp) (by simp) (by simp)
  obtain ⟨-, rfl⟩ | ⟨hg, hx⟩ := step_next hx
  · exact .inr hadv
  · by_cases ha : ∃ p, s.nextMove = .accept p
    · obtain ⟨p, hp⟩ := ha
      rw [hp] at hg hx
      exact .inl ⟨p, hp, hg, by cases hx; rfl⟩
    · obtain ⟨hlock, hclosed, hrunning⟩ := sameHandoff_of_perform (by simpa using hl) hm (not_exists.1 ha) hg hx
      exact .inr ⟨by simpa using hlock, by simpa using hclosed, by simpa using hrunning⟩

/-- Settles O50: ACCEPT under the lock by `accept_of_locked`, every other step by `step_of_locked`. -/
theorem pairLockExcludesOtherProducers : Obligations.PairLockExcludesOtherProducers := by
  intro s t q h hl hm hx
  obtain ⟨p, hmove, hg, rfl⟩ | ⟨hlock, hclosed, hrunning⟩ := step_of_locked hl hm hx
  · obtain ⟨rfl, ⟨-, hother⟩, hclosed, hfree, hslot⟩ := accept_of_locked (inv_advance h) (by simpa using hl) hg
    refine ⟨by simpa using hclosed, fun p' port port' hne hp hp' hr => ?_, .inr ⟨hfree, hmove, hslot⟩⟩
    rw [hother p' hne, State.advance_ports, hp] at hp'
    cases hp'
    exact ⟨rfl, hr⟩
  · refine ⟨hclosed, fun p port port' _ hp hp' hr => ?_, .inl (hlock.trans hl)⟩
    obtain ⟨port'', hp'', hr', hidx⟩ := hrunning p port hp hr
    cases hp''.symm.trans hp'
    exact ⟨hidx, hr'⟩

/-! ## Endless runs -/

variable {schedule : Nat → Move} {run : Nat → State} {k n : Nat}

/-- In a run without a reset the lock's holder keeps the lock while nothing of it is accepted (R72). -/
theorem run_locked_succ (hrun : IsRun schedule run) (hm : ∀ c, schedule k ≠ .reset c) (h : (run k).Inv)
    (hl : (run k).lock = some q) (hna : ¬acceptsAt schedule run q k) :
    (run (k + 1)).Inv ∧ (run (k + 1)).lock = some q := by
  have hscheduled : State.Inv { run k with agenda := [schedule k] } := { h with }
  refine ⟨inv_of_step hscheduled (hrun k), ?_⟩
  obtain ⟨p, hmove, hg, -⟩ | ⟨hlock, -⟩ :=
    step_of_locked (s := { run k with agenda := [schedule k] }) hl hm (hrun k)
  · obtain ⟨-, -, he⟩ := canAccept_iff.1 hg
    obtain rfl : p = q := (eligible_iff_of_locked h hl p).1 he
    exact absurd ⟨hmove, hg⟩ hna
  · exact hlock.trans hl

/-- The holder keeps the lock as far as the run goes without such an acceptance. -/
theorem run_locked (hrun : IsRun schedule run) (hm : ∀ m c, schedule m ≠ .reset c) (h : (run n).Inv)
    (hl : (run n).lock = some q) (hnk : n ≤ k) (hna : ∀ j, n ≤ j → j < k → ¬acceptsAt schedule run q j) :
    (run k).Inv ∧ (run k).lock = some q := by
  induction k, hnk using Nat.le_induction with
  | base => exact ⟨h, hl⟩
  | succ k hnk ih =>
    obtain ⟨hk, hlk⟩ := ih fun j hnj hjk => hna j hnj (hjk.trans k.lt_succ_self)
    exact run_locked_succ hrun (hm k) hk hlk (hna k hnk k.lt_succ_self)

/-- Were nothing of the holder accepted, it would stay eligible; but a weakly fair arbiter accepts what stays eligible
(R143). -/
theorem exists_accept_of_locked (hrun : IsRun schedule run) (hfair : ArbiterFair schedule run)
    (hm : ∀ m c, schedule m ≠ .reset c) (h : (run n).Inv) (hl : (run n).lock = some q) :
    ∃ m, n ≤ m ∧ acceptsAt schedule run q m := by
  by_contra hnone
  have hna : ∀ m, n ≤ m → ¬acceptsAt schedule run q m := fun m hnm ha => hnone ⟨m, hnm, ha⟩
  refine hnone (hfair q n fun k hnk => ?_)
  obtain ⟨hk, hlk⟩ := run_locked hrun hm h hl hnk fun j hnj _ => hna j hnj
  exact (eligible_iff_of_locked hk hlk q).2 rfl

/-- Settles O60: up to the first acceptance of the holder it keeps the lock, and there is one. -/
theorem pairLockHolderMakesProgress : Obligations.PairLockHolderMakesProgress := by
  classical
  intro schedule run n q hrun hfair hm h hl
  have hex := exists_accept_of_locked hrun hfair hm h hl
  obtain ⟨hfirst, haccept⟩ := Nat.find_spec hex
  refine ⟨Nat.find hex, hfirst, haccept, fun k hnk hkm => ?_⟩
  obtain ⟨hk, hlk⟩ := run_locked hrun hm h hl hnk fun j hnj hjk ha => Nat.find_min hex (hjk.trans_le hkm) ⟨hnj, ha⟩
  exact ⟨hlk, eligible_iff_of_locked hk hlk⟩

end Sys2Proof.Machine
end

section
/-!
PROOF. A finished run (spec/20_memory.md rule R79): with every port idle, every stream empty, no bus write pending and the
dispatcher `IDLE` or `EXITED`, no guard but those of the host, the time, reset and EXIT can hold.
-/

namespace Sys2Proof.Machine

variable {s t : State} {p : Nat}

/-- R79's list spelled out. -/
theorem finished_iff :
    s.finished = true ↔ (∀ port ∈ s.ports, port.state = .idle ∧ port.input = []) ∧ s.busPending = false ∧
      (s.phase = .idle ∨ s.phase = .exited) := by
  simp [State.finished, and_assoc]

/-- A port of a finished run has no request outstanding and none to present. -/
theorem port_of_finished (h : s.finished = true) {port : Port} (hp : s.ports[p]? = some port) :
    port.state = .idle ∧ port.input = [] := by
  obtain ⟨hports, -⟩ := finished_iff.1 h
  exact hports port (List.mem_of_getElem? hp)

/-- The moves of a finished run: no producer's step is enabled, and of the dispatcher's only EXIT. -/
theorem move_of_finished {m : Move} (h : s.finished = true) (hg : s.enabled m = true) :
    (∃ p r, m = .send p r) ∨ m = .exit ∨ (∃ n, m = .tick n) ∨ ∃ c, m = .reset c := by
  obtain ⟨-, hpending, hphase⟩ := finished_iff.1 h
  cases m with
  | send p r => exact .inl ⟨p, r, rfl⟩
  | exit => exact .inr (.inl rfl)
  | tick n => exact .inr (.inr (.inl ⟨n, rfl⟩))
  | reset c => exact .inr (.inr (.inr ⟨c, rfl⟩))
  | admitReq p =>
    obtain ⟨port, r, rest, hp, -, hin, -⟩ := canAdmit_iff.1 hg
    obtain ⟨-, hempty⟩ := port_of_finished h hp
    cases hempty.symm.trans hin
  | closeEffect p =>
    obtain ⟨port, hp, hw, -⟩ := canClose_iff.1 hg
    obtain ⟨hidle, -⟩ := port_of_finished h hp
    cases hidle.symm.trans hw
  | accept p =>
    obtain ⟨-, -, he⟩ := canAccept_iff.1 hg
    obtain ⟨port, hp, hr, -⟩ := eligible_iff.1 he
    obtain ⟨hidle, -⟩ := port_of_finished h hp
    cases hidle.symm.trans hr
  | endHi | endLo | endHold =>
    obtain hph | hph := hphase <;>
      simp [State.enabled, State.canEndHi, State.canEndLo, State.canEndHold, hph] at hg
  | busDone => cases hpending.symm.trans hg

/-- A finished run stays so where the ports and the bus stay and the dispatcher stays or exits. -/
theorem finished_of_same (h : s.finished = true) (hports : t.ports = s.ports) (hbus : s.SameBus t)
    (hphase : t.phase = s.phase ∨ t.phase = .exited) : t.finished = true := by
  obtain ⟨hidle, hpending, hph⟩ := finished_iff.1 h
  obtain ⟨hpending', -⟩ := hbus
  refine finished_iff.2 ⟨hports ▸ hidle, hpending'.trans hpending, ?_⟩
  obtain hsame | hexit := hphase
  · rwa [hsame]
  · exact .inr hexit

/-- An enabled move of a finished run, but the host's and reset: EXIT or TICK. -/
theorem same_of_perform_of_finished {m : Move} (h : s.finished = true) (hm : ∀ c, m ≠ .reset c)
    (hs : ∀ p r, m ≠ .send p r) (hg : s.enabled m = true) (hx : s.perform m = .next t) :
    t.ports = s.ports ∧ s.SameBus t ∧ (t.phase = s.phase ∨ t.phase = .exited) := by
  obtain ⟨p, r, rfl⟩ | rfl | ⟨n, rfl⟩ | ⟨c, rfl⟩ := move_of_finished h hg
  · exact absurd rfl (hs p r)
  · cases hx; exact ⟨rfl, ⟨rfl, rfl, rfl⟩, .inr rfl⟩
  · cases hx; exact ⟨rfl, ⟨rfl, rfl, rfl⟩, .inl rfl⟩
  · exact absurd rfl (hm c)

/-- Settles O59: the move is passed over, or it is EXIT or TICK. -/
theorem finishedRunsStayQuiet : Obligations.FinishedRunsStayQuiet := by
  intro s t _ h hm hs hx
  suffices hsame : t.ports = s.ports ∧ s.SameBus t ∧ (t.phase = s.phase ∨ t.phase = .exited) by
    obtain ⟨hports, hbus, hphase⟩ := hsame
    exact ⟨finished_of_same h hports hbus hphase, hbus, hports⟩
  obtain ⟨-, rfl⟩ | ⟨hg, hx⟩ := step_next hx
  · simp [State.SameBus]
  · have hadv : s.advance.finished = true := by simpa [State.finished] using h
    simpa [State.SameBus] using same_of_perform_of_finished hadv hm hs hg hx

end Sys2Proof.Machine
end

section
/-!
PROOF. Decoding and encoding of requests (spec/30_encoding.md rules R80 to R88). A header is its three fields; the decode
function of R88 reads a request exactly from `RSV = 0`, the request's opcode and its operand (`requestOf_eq_some_iff`), so that
a header and a text of its length that decode to a request are that request's own. The decoder of a byte stream only cuts.
-/

namespace Sys2Proof.Machine

open Sys2Proof.Laws

variable {h h' : Header} {bytes rest text : List Byte} {i : Instr}

/-! ## Headers -/

/-- A header is put together from its three fields (R80). -/
theorem append_headerFields (h : Header) : headerOp h ++ headerRsv h ++ headerImm h = h := by
  unfold headerOp headerRsv headerImm
  rw [BitVec.extractLsb'_append_extractLsb'_eq_extractLsb' (start₂ := 12) (start₁ := 8) rfl,
    BitVec.extractLsb'_append_extractLsb'_eq_extractLsb' (start₂ := 8) (start₁ := 0) rfl]
  exact BitVec.extractLsb'_eq_self

theorem header_ext_iff :
    h = h' ↔ headerOp h = headerOp h' ∧ headerRsv h = headerRsv h' ∧ headerImm h = headerImm h' := by
  refine ⟨fun e => e ▸ ⟨rfl, rfl, rfl⟩, fun ⟨hop, hrsv, himm⟩ => ?_⟩
  rw [← append_headerFields h, ← append_headerFields h', hop, hrsv, himm]

/-- Two bytes read as a header and sent again, high byte first (R80). -/
theorem headerBytes_headerOf (hi lo : Byte) : headerBytes (headerOf hi lo) = [hi, lo] := by
  simp only [headerBytes, headerOf, BitVec.extractLsb'_append_eq_left, BitVec.extractLsb'_append_eq_right]

theorem headerFields (i : Instr) : HeaderFields.Statement i := by
  cases i with
  | init => exact HeaderFields.init
  | sendCmd v => exact HeaderFields.sendCmd v
  | sendData v => exact HeaderFields.sendData v
  | printRow1 text => exact HeaderFields.printRow1 text
  | printRow2 text => exact HeaderFields.printRow2 text
  | close => exact HeaderFields.close

theorem textLength_le (h : Header) : textLength h ≤ textMax := by
  have himm : (headerImm h).toNat ≤ textMax := Nat.le_of_lt_succ (headerImm h).isLt
  unfold textLength
  split_ifs
  · exact himm
  · exact Nat.zero_le _

/-- The two opcodes of format HT have the length `IMM8` gives (R81, R84). -/
theorem textLength_of_row (hop : headerOp h = 4#4 ∨ headerOp h = 5#4) : textLength h = (headerImm h).toNat := by
  simp [textLength, hop]

/-- Every other opcode has none (R84). -/
theorem textLength_of_not_row (h4 : headerOp h ≠ 4#4) (h5 : headerOp h ≠ 5#4) : textLength h = 0 := by
  simp [textLength, h4, h5]

/-! ## Requests -/

/-- Where a request's operand is: nowhere, so that `IMM8` is 0; in `IMM8`; or in the text (R81, R86). -/
def CarriesOperand (h : Header) (text : List Byte) : Instr → Prop
  | .init | .close => headerImm h = 0#8
  | .sendCmd v | .sendData v => headerImm h = v
  | .printRow1 t | .printRow2 t => text = t

/-- R88 as one equivalence. -/
theorem requestOf_eq_some_iff :
    requestOf h text = some i ↔ headerRsv h = 0#4 ∧ headerOp h = opcode i ∧ CarriesOperand h text i := by
  unfold requestOf
  by_cases hrsv : headerRsv h = 0#4
  · simp only [hrsv, ne_eq, not_true_eq_false, if_false, true_and]
    constructor
    · intro hr
      split at hr
      case h_1 _ hop | h_6 _ hop =>
        split_ifs at hr with himm
        cases hr
        exact ⟨BitVec.eq_of_toNat_eq hop, himm⟩
      case h_2 _ hop | h_3 _ hop | h_4 _ hop | h_5 _ hop =>
        cases hr
        exact ⟨BitVec.eq_of_toNat_eq hop, rfl⟩
      case h_7 => cases hr
    · rintro ⟨hop, hoperand⟩
      cases i <;> simp_all [opcode, CarriesOperand]
  · simp [hrsv]

/-- R86: what is illegal, whatever bytes come with the header. -/
theorem requestOf_eq_none_iff :
    requestOf h text = none ↔ headerOp h = 0#4 ∨ 7 ≤ (headerOp h).toNat ∨ headerRsv h ≠ 0#4 ∨
      ((headerOp h = 1#4 ∨ headerOp h = 6#4) ∧ headerImm h ≠ 0#8) := by
  simp only [← BitVec.toNat_inj (x := headerOp h)]
  unfold requestOf
  by_cases hrsv : headerRsv h = 0#4
  · simp only [hrsv, ne_eq, not_true_eq_false, if_false]
    split <;> simp_all
    omega
  · simp [hrsv]

/-! ## The opcode map -/

/-- A header matches a row by its opcode, by `RSV = 0`, and by `IMM8` where the row's mask asks for it (R85). -/
theorem matchesHeader_iff {r : OpcodeRow} (hr : r ∈ opcodeRows) :
    r.matchesHeader h = true ↔ headerOp h = headerOp r.pattern ∧ headerRsv h = 0#4 ∧
      headerImm h &&& headerImm r.mask = 0#8 := by
  have hrow : ∀ r ∈ opcodeRows, headerOp r.mask = BitVec.allOnes 4 ∧ headerRsv r.mask = BitVec.allOnes 4 ∧
      headerRsv r.pattern = 0#4 ∧ headerImm r.pattern = 0#8 := by decide
  obtain ⟨hop, hrsv, hrsv0, himm0⟩ := hrow r hr
  have hand : headerOp (h &&& r.mask) = headerOp h &&& headerOp r.mask ∧
      headerRsv (h &&& r.mask) = headerRsv h &&& headerRsv r.mask ∧
      headerImm (h &&& r.mask) = headerImm h &&& headerImm r.mask :=
    ⟨BitVec.extractLsb'_and, BitVec.extractLsb'_and, BitVec.extractLsb'_and⟩
  obtain ⟨handOp, handRsv, handImm⟩ := hand
  rw [OpcodeRow.matchesHeader, beq_iff_eq, header_ext_iff, handOp, handRsv, handImm, hop, hrsv, hrsv0, himm0,
    BitVec.and_allOnes, BitVec.and_allOnes]

/-- Every request has its own row (R85). -/
theorem exists_row_of_requestOf (hr : requestOf h text = some i) :
    ∃ r ∈ opcodeRows, r.matchesHeader h = true ∧ r.mnemonic = mnemonic i := by
  obtain ⟨hrsv, hop, hoperand⟩ := requestOf_eq_some_iff.1 hr
  have row (k : Fin 6) (hop : headerOp h = headerOp opcodeRows[k].pattern)
      (himm : headerImm h &&& headerImm opcodeRows[k].mask = 0#8) (hname : opcodeRows[k].mnemonic = mnemonic i) :
      ∃ r ∈ opcodeRows, r.matchesHeader h = true ∧ r.mnemonic = mnemonic i :=
    have hmem := List.getElem_mem k.isLt
    ⟨opcodeRows[k], hmem, (matchesHeader_iff hmem).2 ⟨hop, hrsv, himm⟩, hname⟩
  cases i with
  | init => exact row 0 hop (BitVec.and_allOnes.trans hoperand) rfl
  | sendCmd => exact row 1 hop BitVec.and_zero rfl
  | sendData => exact row 2 hop BitVec.and_zero rfl
  | printRow1 => exact row 3 hop BitVec.and_zero rfl
  | printRow2 => exact row 4 hop BitVec.and_zero rfl
  | close => exact row 5 hop (BitVec.and_allOnes.trans hoperand) rfl

/-- Every row is a request's, whatever text comes with the header (R85, R88). -/
theorem exists_requestOf_of_row {r : OpcodeRow} (hr : r ∈ opcodeRows) (hm : r.matchesHeader h = true) (text : List Byte) :
    ∃ i, requestOf h text = some i := by
  obtain ⟨hop, hrsv, himm⟩ := (matchesHeader_iff hr).1 hm
  have request (i : Instr) (hop : headerOp h = opcode i) (hoperand : CarriesOperand h text i) :
      ∃ i, requestOf h text = some i := ⟨i, requestOf_eq_some_iff.2 ⟨hrsv, hop, hoperand⟩⟩
  simp only [opcodeRows, List.mem_cons, List.not_mem_nil, or_false] at hr
  obtain rfl | rfl | rfl | rfl | rfl | rfl := hr
  · exact request .init hop (BitVec.and_allOnes.symm.trans himm)
  · exact request (.sendCmd (headerImm h)) hop rfl
  · exact request (.sendData (headerImm h)) hop rfl
  · exact request (.printRow1 text) hop rfl
  · exact request (.printRow2 text) hop rfl
  · exact request .close hop (BitVec.and_allOnes.symm.trans himm)

/-! ## Cutting a byte stream -/

/-- The three answers of the decoder after a header, each spelled out (R84, R88). -/
theorem decodeHeader_eq_request_iff :
    decodeHeader h bytes = .request i rest ↔ textLength h ≤ bytes.length ∧
      requestOf h (bytes.take (textLength h)) = some i ∧ bytes.drop (textLength h) = rest := by
  unfold decodeHeader
  split_ifs with hle
  · cases hr : requestOf h (bytes.take (textLength h)) <;> simp [hle]
  · simp [hle]

theorem decodeHeader_eq_illegal_iff :
    decodeHeader h bytes = .illegal h' rest ↔ textLength h ≤ bytes.length ∧
      requestOf h (bytes.take (textLength h)) = none ∧ h = h' ∧ bytes.drop (textLength h) = rest := by
  unfold decodeHeader
  split_ifs with hle
  · cases hr : requestOf h (bytes.take (textLength h)) <;> simp [hle]
  · simp [hle]

theorem decodeHeader_eq_incomplete_iff : decodeHeader h bytes = .incomplete ↔ bytes.length < textLength h := by
  unfold decodeHeader
  split_ifs with hle
  · split <;> simpa using hle
  · simpa using hle

/-- A request's own header and text decode to it (R80, R88). -/
theorem requestOf_encodeHeader (i : Instr) : requestOf (encodeHeader i) (requestText i) = some i := by
  obtain ⟨hop, hrsv, himm, -⟩ := headerFields i
  refine requestOf_eq_some_iff.2 ⟨hrsv, hop, ?_⟩
  cases i with
  | init | close | sendCmd | sendData => exact himm
  | printRow1 | printRow2 => rfl

/-- A header and a text of its length that decode to a request are that request's own: no bit is left free (R80, R81). -/
theorem encodeHeader_of_requestOf (hlen : text.length = textLength h) (hr : requestOf h text = some i) :
    h = encodeHeader i ∧ text = requestText i := by
  obtain ⟨hrsv, hop, hoperand⟩ := requestOf_eq_some_iff.1 hr
  obtain ⟨hop', hrsv', himm', -⟩ := headerFields i
  suffices hrest : headerImm h = immediate i ∧ text = requestText i by
    obtain ⟨himm, htext⟩ := hrest
    exact ⟨header_ext_iff.2 ⟨hop.trans hop'.symm, hrsv.trans hrsv'.symm, himm.trans himm'.symm⟩, htext⟩
  cases i with
  | init | close | sendCmd | sendData =>
    have hempty : textLength h = 0 := textLength_of_not_row (by simp [hop, opcode]) (by simp [hop, opcode])
    exact ⟨hoperand, List.length_eq_zero_iff.1 (hlen.trans hempty)⟩
  | printRow1 t | printRow2 t =>
    have hlength : textLength h = (headerImm h).toNat := textLength_of_row (by simp [hop, opcode])
    obtain rfl : text = t := hoperand
    exact ⟨by simp [immediate, hlen, hlength], rfl⟩

/-- Settles O1: the bytes of a request are its header's two, which read back as the header, and its text, whose length the
header says. -/
theorem decodeInvertsEncode : Obligations.DecodeInvertsEncode := by
  intro i rest hw
  obtain ⟨-, -, -, -, hlen⟩ := headerFields i
  have hcut : decode (encode i ++ rest) = decodeHeader (encodeHeader i) (requestText i ++ rest) :=
    congrArg (decodeHeader · _) (headerOf_headerBytes (encodeHeader i))
  rw [hcut, decodeHeader_eq_request_iff, hlen hw, List.take_left, List.drop_left]
  exact ⟨by simp, requestOf_encodeHeader i, rfl⟩

/-- Settles O2: what decodes has a text of the length its header says, so header and text are the request's own. -/
theorem decodedRequestsReencode : Obligations.DecodedRequestsReencode := by
  constructor
  · intro bytes rest i hd
    obtain _ | ⟨hi, _ | ⟨lo, bytes⟩⟩ := bytes
    · cases hd
    · cases hd
    obtain ⟨hle, hr, rfl⟩ := decodeHeader_eq_request_iff.1 hd
    have hlen : (bytes.take (textLength (headerOf hi lo))).length = textLength (headerOf hi lo) :=
      List.length_take_of_le hle
    obtain ⟨hh, ht⟩ := encodeHeader_of_requestOf hlen hr
    refine ⟨wellFormed_of_requestOf (hlen.trans_le (textLength_le _)) hr, ?_⟩
    rw [encode, ← hh, ← ht, headerBytes_headerOf, List.append_assoc, List.take_append_drop]
    rfl
  · intro r i hwhole
    have howner (hr : r.request = some i) : wellFormed i = true ∧ r = recordOf i := by
      obtain ⟨hrsv, -⟩ := requestOf_eq_some_iff.1 hr
      have hlen : r.text.length = textLength r.header := by simpa [Record.whole, recordTextLength, hrsv] using hwhole
      obtain ⟨hh, ht⟩ := encodeHeader_of_requestOf hlen hr
      exact ⟨wellFormed_of_whole hwhole hr, congrArg₂ Record.mk hh ht⟩
    refine ⟨⟨howner, ?_⟩, fun hr rest => ?_⟩
    · rintro ⟨-, rfl⟩
      exact requestOf_encodeHeader i
    · obtain ⟨hw, rfl⟩ := howner hr
      exact decodeInvertsEncode i rest hw

/-- Settles O3: two rows differ in their opcode, and a row is matched exactly by the headers of one request. -/
theorem opcodeMapSettlesDecoding : Obligations.OpcodeMapSettlesDecoding := by
  refine ⟨?_, fun h bytes => ⟨fun i rest hd => ?_, ?_⟩⟩
  · have hdistinct : opcodeRows.Pairwise fun r r' => headerOp r.pattern ≠ headerOp r'.pattern := by decide
    refine hdistinct.imp_of_mem fun hr hr' hne h ⟨hm, hm'⟩ => hne ?_
    obtain ⟨hop, -⟩ := (matchesHeader_iff hr).1 hm
    obtain ⟨hop', -⟩ := (matchesHeader_iff hr').1 hm'
    exact hop.symm.trans hop'
  · obtain ⟨-, hr, -⟩ := decodeHeader_eq_request_iff.1 hd
    exact exists_row_of_requestOf hr
  · rintro hlen ⟨r, hr, hm⟩
    obtain ⟨i, hi⟩ := exists_requestOf_of_row hr hm (bytes.take (textLength h))
    exact ⟨i, _, decodeHeader_eq_request_iff.2 ⟨hlen, hi, rfl⟩⟩

/-- A whole illegal record has no text: `RSV` is not 0, or the opcode is not that of a row print (R177). -/
theorem text_eq_nil_of_illegal {r : Record} (hw : r.whole = true) (hr : r.request = none) : r.text = [] := by
  have hlen : r.text.length = recordTextLength r.header := by simpa [Record.whole] using hw
  suffices hempty : recordTextLength r.header = 0 from List.length_eq_zero_iff.1 (hlen.trans hempty)
  unfold recordTextLength
  split_ifs with hrsv
  · have hill := requestOf_eq_none_iff.1 hr
    refine textLength_of_not_row ?_ ?_ <;> intro hop <;> simp [hop, hrsv] at hill
  · rfl

/-- Settles O4: the decoder cuts by `textLength` and then asks `requestOf`, whose illegal headers are those of R86. -/
theorem illegalHeadersDecodeAsIllegal : Obligations.IllegalHeadersDecodeAsIllegal := by
  intro h bytes
  refine ⟨textLength_of_row, textLength_of_not_row, decodeHeader_eq_incomplete_iff, fun hlen => ?_, fun h' rest hd => ?_,
    fun hw => ⟨requestOf_eq_none_iff, text_eq_nil_of_illegal hw⟩⟩
  · rw [decodeHeader_eq_illegal_iff, requestOf_eq_none_iff]
    simp [hlen]
  · obtain ⟨-, -, hh, hrest⟩ := decodeHeader_eq_illegal_iff.1 hd
    exact ⟨hh.symm, hrest.symm⟩

/-- Settles O6 by evaluating the decoder on the ten byte strings. -/
theorem specHeaderWordsDecode : Obligations.SpecHeaderWordsDecode := by
  unfold Obligations.SpecHeaderWordsDecode
  decide

end Sys2Proof.Machine
end

section
/-!
PROOF. The 26-bit layout of a TimedWrite (spec/30_encoding.md rule R90): a word is its three fields, and its pair field is the
code of one pair tag, or 3.
-/

namespace Sys2Proof.Machine

variable {w : BitVec 26} {tw : TimedWrite}

/-- The codes of R90 are decoded to their own tags, and 3 to none. -/
theorem pairOfCode_eq_some_iff {c : BitVec 2} {pair : Pair} : pairOfCode c = some pair ↔ c = pair.code := by
  cases pair <;> revert c <;> decide

theorem pairOfCode_eq_none_iff {c : BitVec 2} : pairOfCode c = none ↔ c = 3#2 := by
  revert c
  decide

/-- A word is put together from its three fields. -/
theorem eq_append_fields_iff {pair : BitVec 2} {hold : BitVec 16} {payload : Byte} :
    w = pair ++ hold ++ payload ↔
      w.extractLsb' 24 2 = pair ∧ w.extractLsb' 8 16 = hold ∧ w.extractLsb' 0 8 = payload := by
  constructor
  · rintro rfl
    refine ⟨?_, ?_, BitVec.extractLsb'_append_eq_right⟩
    · rw [BitVec.extractLsb'_append_eq_of_le (by decide)]
      exact BitVec.extractLsb'_append_eq_left
    · rw [BitVec.extractLsb'_append_eq_of_le (by decide)]
      exact BitVec.extractLsb'_append_eq_right
  · rintro ⟨rfl, rfl, rfl⟩
    rw [BitVec.extractLsb'_append_extractLsb'_eq_extractLsb' (start₂ := 24) (start₁ := 8) rfl,
      BitVec.extractLsb'_append_extractLsb'_eq_extractLsb' (start₂ := 8) (start₁ := 0) rfl]
    exact BitVec.extractLsb'_eq_self.symm

/-- A word unpacks to the one TimedWrite whose packed word it is (R90). -/
theorem unpackTimedWrite_eq_some_iff : unpackTimedWrite w = some tw ↔ w = packTimedWrite tw := by
  obtain ⟨payload, hold, pair⟩ := tw
  rw [packTimedWrite, eq_append_fields_iff, ← pairOfCode_eq_some_iff]
  unfold unpackTimedWrite
  cases pairOfCode (w.extractLsb' 24 2) <;> simp [and_comm, and_left_comm]

/-- A word unpacks to nothing exactly where its pair field stands for no tag (R90, item U16). -/
theorem unpackTimedWrite_eq_none_iff : unpackTimedWrite w = none ↔ w.extractLsb' 24 2 = 3#2 := by
  rw [← pairOfCode_eq_none_iff]
  unfold unpackTimedWrite
  cases pairOfCode (w.extractLsb' 24 2) <;> simp

/-- Settles O7: both directions are the one equivalence of unpacking and packing. -/
theorem timedWriteLayoutRoundTrips : Obligations.TimedWriteLayoutRoundTrips :=
  ⟨fun _ => unpackTimedWrite_eq_some_iff.2 rfl, fun _ _ h => (unpackTimedWrite_eq_some_iff.1 h).symm,
    fun _ => unpackTimedWrite_eq_none_iff⟩

end Sys2Proof.Machine
end

section
/-!
PROOF. The assembler (spec/30_encoding.md rules R89, R91) makes a request by a mnemonic without an operand, with a byte, or as
a row print, and `printRow` is the one place that makes a row print.
-/

namespace Sys2Proof.Machine

variable {i : Instr} {text : List Byte} {word cs left line : List Char}

/-- R91: the two rows, each with its request, and no text longer than a header can say. -/
theorem printRow_eq_some_iff {r : Nat} :
    printRow r text = some i ↔
      text.length ≤ 255 ∧ ((r = 1 ∧ i = .printRow1 text) ∨ (r = 2 ∧ i = .printRow2 text)) := by
  unfold printRow
  split_ifs with hlen
  · split <;> simp_all [eq_comm]
  · simp [hlen]

theorem wellFormed_of_printRow {r : Nat} (h : printRow r text = some i) : wellFormed i = true := by
  obtain ⟨hlen, ⟨-, rfl⟩ | ⟨-, rfl⟩⟩ := printRow_eq_some_iff.1 h <;> exact decide_eq_true hlen

/-- The mnemonics without an operand are those of INIT and CLOSE (R85, R89). -/
theorem keyword_eq_plain (h : keyword word = some (.plain i)) : i = .init ∨ i = .close := by
  unfold keyword at h
  split_ifs at h <;> cases h <;> simp

/-- A request is made of the mnemonic alone, of a byte operand, or by `printRow` (R89, R91). -/
theorem parseOperand_eq_some {k : Keyword} (h : parseOperand k cs = some (i, left)) :
    k = .plain i ∨ (∃ v, i = .sendCmd v ∨ i = .sendData v) ∨ ∃ row text, printRow row text = some i := by
  cases k with
  | plain j => cases h; exact .inl rfl
  | byte make =>
    simp only [parseOperand] at h
    obtain ⟨⟨v, rest⟩, -, hv⟩ := Option.map_eq_some_iff.1 h
    cases hv
    refine .inr (.inl ⟨v, ?_⟩)
    split <;> simp
  | text =>
    simp only [parseOperand] at h
    split at h
    · obtain ⟨j, hj, he⟩ := Option.map_eq_some_iff.1 h
      cases he
      exact .inr (.inr ⟨_, _, hj⟩)
    · cases h
  | anyRow =>
    simp only [parseOperand] at h
    split at h
    · split at h
      · obtain ⟨j, hj, he⟩ := Option.map_eq_some_iff.1 h
        cases he
        exact .inr (.inr ⟨_, _, hj⟩)
      · cases h
    · cases h

/-- Whatever an operand is read from, the request it makes can be encoded (R82, R89). -/
theorem wellFormed_of_parseOperand {k : Keyword} (hk : keyword word = some k) (h : parseOperand k cs = some (i, left)) :
    wellFormed i = true := by
  obtain rfl | ⟨v, rfl | rfl⟩ | ⟨row, text, hrow⟩ := parseOperand_eq_some h
  · obtain rfl | rfl := keyword_eq_plain hk <;> rfl
  · rfl
  · rfl
  · exact wellFormed_of_printRow hrow

/-- An assembled line has a mnemonic and its operand on it (R89). -/
theorem operand_of_assembleRequest {p : Nat} (h : assembleRequest line = some (p, i)) :
    ∃ word k cs left, keyword word = some k ∧ parseOperand k cs = some (i, left) := by
  unfold assembleRequest at h
  split at h
  · cases h
  · split at h
    · cases h
    · rename_i k hk
      split at h
      · rename_i hj
        split_ifs at h
        cases h
        exact ⟨_, k, _, _, hk, hj⟩
      · cases h

/-- Settles O58: a line's request is made by `parseOperand`, a row print always by `printRow`. -/
theorem assembledRequestsAreWellFormed : Obligations.AssembledRequestsAreWellFormed := by
  refine ⟨fun line p i h => ?_, fun r text i => printRow_eq_some_iff⟩
  obtain ⟨word, k, cs, left, hk, hi⟩ := operand_of_assembleRequest h
  exact wellFormed_of_parseOperand hk hi

end Sys2Proof.Machine
end

section
/-!
PROOF. Responses (spec/30_encoding.md rule R87, spec/43_session_requests.md rule R179, spec/20_memory.md rule R78). What a move can
do to a port's responses is `Port.RespondsOnce`; admission answers or starts on an idle port, ACCEPT and CLOSE taking effect end
the outstanding request, and no other move writes a response.
-/

namespace Sys2Proof.Machine

variable {s t : State} {p : Nat} {port port' : Port}

/-- No response, and no request ended; or one response, to an idle port, for the outstanding request if there was one. -/
def Port.RespondsOnce (port port' : Port) : Prop :=
  (port'.responses = port.responses ∧ (port'.state = .idle → port.state = .idle)) ∨
    ∃ r st, port'.responses = port.responses ++ [(r, st)] ∧ port'.state = .idle ∧ (port.state ≠ .idle → r = port.req)

/-- Every port that is still there has `Port.RespondsOnce`. -/
def State.RespondsOnce (s t : State) : Prop :=
  ∀ (p : Nat) (port port' : Port), s.ports[p]? = some port → t.ports[p]? = some port' → port.RespondsOnce port'

theorem respondsOnce_refl (port : Port) : port.RespondsOnce port := .inl ⟨rfl, id⟩

theorem respondsOnce_finish (port : Port) (st : Status) : port.RespondsOnce (port.finish st) :=
  .inr ⟨port.req, st, rfl, rfl, fun _ => rfl⟩

theorem respondsOnce_closeDone (port : Port) : port.RespondsOnce port.closeDone :=
  .inr ⟨port.req, .ok, rfl, rfl, fun _ => rfl⟩

theorem respondsOnce_cutOff (port : Port) : port.RespondsOnce port.cutOff := by
  by_cases hidle : port.state = .idle
  · rw [cutOff_of_idle hidle]
    exact respondsOnce_refl port
  · rw [cutOff_of_busy hidle]
    exact respondsOnce_finish port .errClosed

/-- A request rejected at admission (R207). -/
theorem respondsOnce_respond (hidle : port.state = .idle) (r : Request) (st : Status) :
    port.RespondsOnce (port.respond r st) :=
  .inr ⟨r, st, rfl, hidle, fun hbusy => absurd hidle hbusy⟩

theorem respondsOnce_of_samePorts (h : t.ports = s.ports) : s.RespondsOnce t := by
  intro p port port' hp hp'
  rw [h, hp] at hp'
  cases hp'
  exact respondsOnce_refl port

theorem respondsOnce_of_set (hp : s.ports[p]? = some port) (ht : t.ports = s.ports.set p port')
    (h : port.RespondsOnce port') : s.RespondsOnce t := by
  intro q old new hold hnew
  rw [ht] at hnew
  by_cases hqp : p = q
  · subst hqp
    obtain ⟨-, rfl⟩ : p < s.ports.length ∧ port' = new := by simpa using List.getElem?_eq_some_iff.1 hnew
    cases hp.symm.trans hold
    exact h
  · rw [List.getElem?_set_ne hqp] at hnew
    cases hold.symm.trans hnew
    exact respondsOnce_refl old

/-- Taking the request off its stream is seen in no response (R43). -/
theorem respondsOnce_of_present {rest : List Record} (hp : s.ports[p]? = some port)
    (h : (s.present p port rest).RespondsOnce t) : s.RespondsOnce t := by
  intro q old new hold hnew
  by_cases hqp : q = p
  · subst hqp
    cases hp.symm.trans hold
    exact h q { port with input := rest } new (setPort_getElem?_self hp) hnew
  · exact h q old new ((setPort_getElem?_ne hqp).trans hold) hnew

/-- A request's meaning: its response, or its start (R170, R207). -/
theorem respondsOnce_of_exec {i : Instr} (h : exec i s = .next t) : s.RespondsOnce t := by
  obtain ⟨port, hp, hidle, ⟨code, rfl⟩ | ⟨-, -, ⟨-, -, rfl⟩ | ⟨-, -, -, rfl⟩ | ⟨-, rfl⟩⟩⟩ := exec_next h
  · exact respondsOnce_of_set hp rfl (respondsOnce_respond hidle _ code)
  · exact respondsOnce_of_set hp rfl (.inl ⟨rfl, nofun⟩)
  · exact respondsOnce_of_set hp rfl (.inl ⟨rfl, nofun⟩)
  · exact respondsOnce_of_set hp rfl (.inl ⟨rfl, nofun⟩)

theorem respondsOnce_of_admitIllegal {hdr : Header} (h : s.admitIllegal hdr = .next t) : s.RespondsOnce t := by
  obtain ⟨port, hp, hidle, ⟨rfl, -⟩ | ⟨rfl, -⟩ | ⟨rfl, -⟩⟩ := admission_next h <;>
    exact respondsOnce_of_set hp rfl (respondsOnce_respond hidle _ _)

/-- ADMIT (R170). -/
theorem respondsOnce_of_admitReq (hg : s.canAdmit p = true) (h : s.admitReq p = .next t) : s.RespondsOnce t := by
  obtain ⟨port, r, rest, hp, -, -, -, ⟨i, -, hx⟩ | ⟨-, hx⟩⟩ := admit_next hg h
  · exact respondsOnce_of_present hp (respondsOnce_of_exec hx)
  · exact respondsOnce_of_present hp (respondsOnce_of_admitIllegal hx)

theorem respondsOnce_issue (s : State) (p : Nat) (r : Record) : s.RespondsOnce (s.issue p r) := by
  unfold State.issue
  split
  · exact respondsOnce_of_samePorts rfl
  · rename_i port hp
    exact respondsOnce_of_set hp rfl (.inl ⟨rfl, id⟩)

/-- CLOSE_EFFECT ends its own request and every other that is outstanding (R176, R203). -/
theorem respondsOnce_closeEffect (s : State) (p : Nat) : s.RespondsOnce (s.closeEffect p) := by
  intro q old new hold hnew
  have hclosed : (s.closeEffect p).ports[q]? = some (if q = p then old.closeDone else old.cutOff) := by
    rw [State.closeEffect_ports, closePorts_getElem?, hold]
    rfl
  cases hclosed.symm.trans hnew
  split
  · exact respondsOnce_closeDone old
  · exact respondsOnce_cutOff old

/-- ACCEPT ends the request with its last TimedWrite (R142, R144). -/
theorem respondsOnce_accept (hg : s.canAccept p = true) : s.RespondsOnce (s.accept p) := by
  obtain ⟨port, port', tw, hp, -, -, ht, -, -, -, ⟨rfl, -⟩ | ⟨rfl, -⟩⟩ := accept_effect hg
  · exact respondsOnce_of_set hp ht (respondsOnce_finish port .ok)
  · exact respondsOnce_of_set hp ht (.inl ⟨rfl, id⟩)

theorem respondsOnce_of_perform {m : Move} (hm : ∀ c, m ≠ .reset c) (hg : s.enabled m = true)
    (hx : s.perform m = .next t) : s.RespondsOnce t := by
  cases m with
  | send p r => cases hx; exact respondsOnce_issue s p r
  | admitReq p => exact respondsOnce_of_admitReq hg hx
  | closeEffect p => cases hx; exact respondsOnce_closeEffect s p
  | accept p => cases hx; exact respondsOnce_accept hg
  | endHi => obtain ⟨-, rfl⟩ := endHi_next hx; exact respondsOnce_of_samePorts rfl
  | endLo => obtain ⟨-, rfl⟩ := endLo_next hx; exact respondsOnce_of_samePorts rfl
  | endHold | exit | busDone | tick => cases hx; exact respondsOnce_of_samePorts rfl
  | reset c => exact absurd rfl (hm c)

theorem respondsOnce_of_step (hm : ∀ c, s.nextMove ≠ .reset c) (hx : step s = .next t) : s.RespondsOnce t := by
  obtain ⟨-, rfl⟩ | ⟨hg, hx⟩ := step_next hx
  · exact respondsOnce_of_samePorts s.advance_ports
  · have hadv := respondsOnce_of_perform hm hg hx
    unfold State.RespondsOnce at hadv
    rwa [State.advance_ports] at hadv

/-- A reset keeps every port's responses (log 11). -/
theorem responses_of_step_reset {c : Params} (hm : s.nextMove = .reset c) (hx : step s = .next t)
    (hp : s.ports[p]? = some port) (hp' : t.ports[p]? = some port') : port'.responses = port.responses := by
  have ht : t = s.advance.resetRunning c := by simpa [hx] using step_reset hm
  have hports : t.ports = s.ports.map Port.resetRunning := by rw [ht, ← s.advance_ports]; rfl
  rw [hports, List.getElem?_map, hp] at hp'
  cases hp'
  rfl

/-- Settles O57: but for reset, which keeps the responses, every step has `State.RespondsOnce`. -/
theorem oneResponsePerRequest : Obligations.OneResponsePerRequest := by
  intro s t p port port' hx hp hp'
  by_cases hm : ∀ c, s.nextMove ≠ .reset c
  · obtain ⟨hresp, hstays⟩ | ⟨r, st, hresp, hidle, hr⟩ := respondsOnce_of_step hm hx p port port' hp hp'
    · exact ⟨.inl hresp, fun _ hbusy hidle => absurd (hstays hidle) hbusy⟩
    · exact ⟨.inr ⟨r, st, hresp, hidle⟩, fun _ hbusy _ => ⟨st, hr hbusy ▸ hresp⟩⟩
  · obtain ⟨c, hc⟩ : ∃ c, s.nextMove = .reset c := by simpa using hm
    exact ⟨.inl (responses_of_step_reset hc hx hp hp'), fun hm => absurd hc (hm c)⟩

end Sys2Proof.Machine
end

section
/-!
PROOF. The Bit Codec and the nibble framing (spec/40_bit_codec.md rules R100 to R113). A byte is its two nibbles; under a
legal PinMap the flag byte has only its low nibble, so a payload is the byte's nibble on top of the flags. All that is said
of payloads, of a byte and of whole expansions, follows from that.
-/

namespace Sys2Proof.Machine

variable {pm pm' : PinMap}

/-! ## Single bits -/

/-- Clearing a bit shows at its own position alone (R101). -/
theorem hasBit_clearBit (v : Byte) (p q : Pos) : hasBit (clearBit v p) q = (hasBit v q && !decide (q = p)) := by
  have hq : q.toNat < 8 := q.isLt
  have hbit : clearBit v p = v &&& ~~~BitVec.twoPow 8 p.toNat := rfl
  simp [hasBit_eq_getLsbD, hbit, hq, BitVec.toNat_inj]

/-- Settles O8: setting and clearing each by its rule about `hasBit` (R100, R101), which reads the bit (R102). -/
theorem bitCodecOperations : Obligations.BitCodecOperations := by
  intro v p q
  have hpos : decide (q = p) = (p == q) := by rw [beq_eq_decide, decide_eq_decide, eq_comm]
  refine ⟨hasBit_eq_getLsbD v q, ?_, ?_⟩
  · rw [hasBit_setBit, hpos, Bool.or_comm]
  · rw [hasBit_clearBit, hpos, Bool.and_comm, bne]

/-! ## Bytes as two nibbles -/

theorem append_nibbles (v : Byte) : v.extractLsb' 4 4 ++ v.extractLsb' 0 4 = v := by
  rw [BitVec.extractLsb'_append_extractLsb'_eq_extractLsb' (start₂ := 4) (start₁ := 0) rfl, BitVec.extractLsb'_eq_self]

theorem append_shiftLeft_four (a b : BitVec 4) : (a ++ b : Byte) <<< 4 = b ++ 0#4 := by
  rw [BitVec.shiftLeft_eq_concat_of_lt (by decide)]
  exact congrArg (· ++ 0#4) BitVec.extractLsb'_append_eq_right

theorem append_ushiftRight_four (a b : BitVec 4) : (a ++ b : Byte) >>> 4 = 0#4 ++ a := by
  rw [BitVec.ushiftRight_eq_extractLsb'_of_lt (by decide)]
  exact congrArg (0#4 ++ ·) BitVec.extractLsb'_append_eq_left

theorem append_and_0F (a b : BitVec 4) : (a ++ b : Byte) &&& 0x0F#8 = 0#4 ++ b := by
  have hmask : 0x0F#8 = 0#4 ++ BitVec.allOnes 4 := rfl
  rw [hmask, BitVec.and_append, BitVec.and_zero, BitVec.and_allOnes]

theorem append_and_F0 (a b : BitVec 4) : (a ++ b : Byte) &&& 0xF0#8 = a ++ 0#4 := by
  have hmask : 0xF0#8 = BitVec.allOnes 4 ++ 0#4 := rfl
  rw [hmask, BitVec.and_append, BitVec.and_zero, BitVec.and_allOnes]

/-- The high write takes the byte's high nibble into the flag byte's (R105). -/
theorem hiByte_append (f g a b : BitVec 4) : hiByte (f ++ g) (a ++ b) = (f ^^^ a) ++ g := by
  rw [hiByte, append_ushiftRight_four, append_shiftLeft_four, BitVec.xor_append, BitVec.xor_zero]

/-- The low write takes the byte's low nibble in place of the flag byte's high one (R106). -/
theorem loByte_append (f g a b : BitVec 4) : loByte (f ++ g) (a ++ b) = b ++ g := by
  rw [loByte, append_shiftLeft_four, append_and_0F, append_and_F0, BitVec.xor_append, BitVec.zero_xor, BitVec.xor_zero]

/-! ## The flag byte and the two payloads -/

/-- Setting one of the bits 3:0 leaves the high nibble (R100). -/
theorem setBit_highNibble (v : Byte) {p : Pos} (hp : p.toNat < 4) :
    (setBit v p).extractLsb' 4 4 = v.extractLsb' 4 4 := by
  have hbit : (1#8 <<< p.toNat).extractLsb' 4 4 = 0#4 := by
    revert p
    decide
  rw [setBit, BitVec.extractLsb'_or, hbit, BitVec.or_zero]

/-- A legal PinMap's flag byte is its low nibble (R104, R107, R231). -/
theorem nib_highNibble (h : pinMapOk pm = true) (kind : FrameKind) : (nib pm kind).extractLsb' 4 4 = 0#4 := by
  have hlow := (flagPositions_of_pinMapOk h).2
  have hbl : (blPos pm).toNat < 4 := hlow _ (by simp [flagPositions])
  have hrs : (rsPos pm).toNat < 4 := hlow _ (by simp [flagPositions])
  cases kind with
  | cmd => exact setBit_highNibble _ hbl
  | data => exact (setBit_highNibble _ hrs).trans (setBit_highNibble _ hbl)

/-- The high write is the byte's high nibble on top of the frame flags (R105, R107). -/
theorem hiByte_nib (h : pinMapOk pm = true) (kind : FrameKind) (v : Byte) :
    hiByte (nib pm kind) v = v.extractLsb' 4 4 ++ (nib pm kind).extractLsb' 0 4 := by
  have happ := hiByte_append ((nib pm kind).extractLsb' 4 4) ((nib pm kind).extractLsb' 0 4) (v.extractLsb' 4 4)
    (v.extractLsb' 0 4)
  rwa [append_nibbles, append_nibbles, nib_highNibble h, BitVec.zero_xor] at happ

/-- The low write is the byte's low nibble on top of the frame flags (R106, R107). -/
theorem loByte_nib (kind : FrameKind) (v : Byte) :
    loByte (nib pm kind) v = v.extractLsb' 0 4 ++ (nib pm kind).extractLsb' 0 4 := by
  have happ := loByte_append ((nib pm kind).extractLsb' 4 4) ((nib pm kind).extractLsb' 0 4) (v.extractLsb' 4 4)
    (v.extractLsb' 0 4)
  rwa [append_nibbles, append_nibbles] at happ

/-- A nibble or-ed into the flag byte at bits 7:4 stands on top of the frame flags (R107). -/
theorem nib_or_append (h : pinMapOk pm = true) (kind : FrameKind) (a : BitVec 4) :
    nib pm kind ||| (a ++ 0#4) = a ++ (nib pm kind).extractLsb' 0 4 := by
  have hnib : nib pm kind = 0#4 ++ (nib pm kind).extractLsb' 0 4 := by
    rw [← nib_highNibble h kind, append_nibbles]
  calc nib pm kind ||| (a ++ 0#4) = (0#4 ++ (nib pm kind).extractLsb' 0 4) ||| (a ++ 0#4) := by rw [← hnib]
    _ = a ++ (nib pm kind).extractLsb' 0 4 := by rw [BitVec.or_append, BitVec.zero_or, BitVec.or_zero]

theorem hiByte_eq_nib_or (h : pinMapOk pm = true) (kind : FrameKind) (v : Byte) :
    hiByte (nib pm kind) v = (nib pm kind ||| (v &&& 0xF0#8)) := by
  have hv : v &&& 0xF0#8 = v.extractLsb' 4 4 ++ 0#4 := by rw [← append_and_F0, append_nibbles]
  rw [hiByte_nib h, hv, nib_or_append h]

theorem loByte_eq_nib_or (h : pinMapOk pm = true) (kind : FrameKind) (v : Byte) :
    loByte (nib pm kind) v = (nib pm kind ||| ((v &&& 0x0F#8) <<< 4)) := by
  have hv : (v &&& 0x0F#8) <<< 4 = v.extractLsb' 0 4 ++ 0#4 := by
    rw [← append_shiftLeft_four, ← append_and_0F, append_nibbles]
  rw [loByte_nib, hv, nib_or_append h]

/-- The four bits on the data lines and the frame flags, of each payload (R107). -/
theorem hiByte_nibbles (h : pinMapOk pm = true) (kind : FrameKind) (v : Byte) :
    (hiByte (nib pm kind) v).extractLsb' 4 4 = v.extractLsb' 4 4 ∧
      (hiByte (nib pm kind) v).extractLsb' 0 4 = (nib pm kind).extractLsb' 0 4 := by
  rw [hiByte_nib h]
  exact ⟨BitVec.extractLsb'_append_eq_left, BitVec.extractLsb'_append_eq_right⟩

theorem loByte_nibbles (kind : FrameKind) (v : Byte) :
    (loByte (nib pm kind) v).extractLsb' 4 4 = v.extractLsb' 0 4 ∧
      (loByte (nib pm kind) v).extractLsb' 0 4 = (nib pm kind).extractLsb' 0 4 := by
  rw [loByte_nib]
  exact ⟨BitVec.extractLsb'_append_eq_left, BitVec.extractLsb'_append_eq_right⟩

/-- Settles O9: a payload is its nibble on top of the flags, and the mode byte is the high payload of 0x20 (R112). -/
theorem nibbleClosedForms : Obligations.NibbleClosedForms := by
  intro pm kind v h
  obtain ⟨hiData, hiFlags⟩ := hiByte_nibbles h kind v
  obtain ⟨loData, loFlags⟩ := loByte_nibbles (pm := pm) kind v
  exact ⟨nib_highNibble h kind, hiByte_eq_nib_or h kind v, loByte_eq_nib_or h kind v, hiData, loData, hiFlags, loFlags,
    hiByte_eq_nib_or h .cmd 0x20#8, (hiByte_nibbles h .cmd 0x20#8).1⟩

/-- Settles O10: shifted right by 4, the two payloads are the byte's nibbles. -/
theorem nibblePairRecoversItsByte : Obligations.NibblePairRecoversItsByte := by
  intro pm kind v h
  have hhi : (hiByte (nib pm kind) v >>> 4) <<< 4 = v.extractLsb' 4 4 ++ 0#4 := by
    rw [hiByte_nib h, append_ushiftRight_four, append_shiftLeft_four]
  have hlo : loByte (nib pm kind) v >>> 4 = 0#4 ++ v.extractLsb' 0 4 := by rw [loByte_nib, append_ushiftRight_four]
  rw [hhi, hlo, BitVec.or_append, BitVec.or_zero, BitVec.zero_or, append_nibbles]

/-! ## The frame flags of every payload -/

/-- Register-select stands in the flag byte of data alone (R104). -/
theorem hasBit_nib_rsPos (h : pinMapOk pm = true) :
    hasBit (nib pm .cmd) (rsPos pm) = false ∧ hasBit (nib pm .data) (rsPos pm) = true := by
  have hzero : hasBit 0x00#8 (rsPos pm) = false := by simp [hasBit_eq_getLsbD]
  have hnodup : [rsPos pm, rwPos pm, ePos pm, blPos pm].Nodup := (flagPositions_of_pinMapOk h).1
  have hne : rsPos pm ≠ blPos pm := List.rel_of_pairwise_cons hnodup (by simp)
  simp [nib, hasBit_setBit, hzero, hne]

/-- Settles O11: both payloads carry the flag byte's register-select bit. -/
theorem registerSelectInBothNibbles : Obligations.RegisterSelectInBothNibbles := by
  intro pm v h
  obtain ⟨hcmd, hdata⟩ := hasBit_nib_rsPos h
  have hrs : (rsPos pm).toNat < 4 := (flagPositions_of_pinMapOk h).2 _ (by simp [flagPositions])
  exact ⟨(hasBit_hiByte hrs).trans hcmd, (hasBit_loByte hrs).trans hcmd, (hasBit_hiByte hrs).trans hdata,
    (hasBit_loByte hrs).trans hdata⟩

theorem payloadOk_iff {tw : TimedWrite} :
    payloadOk pm tw = true ↔ hasBit tw.payload (ePos pm) = false ∧ hasBit tw.payload (rwPos pm) = false ∧
      hasBit tw.payload (blPos pm) = true ∧ (tw.hold = holdStdUs ∨ tw.hold = holdInitUs) := by
  simp [payloadOk, and_assoc]

/-- Settles O12: both payloads are well built. -/
theorem backlightOnReadWriteClear : Obligations.BacklightOnReadWriteClear := by
  intro pm kind v h
  obtain ⟨hhi, hlo⟩ := payloadOk_nibbles h kind v (.inl rfl) .none
  obtain ⟨-, hiRw, hiBl, -⟩ := payloadOk_iff.1 hhi
  obtain ⟨-, loRw, loBl, -⟩ := payloadOk_iff.1 hlo
  exact ⟨hiBl, loBl, hiRw, loRw⟩

/-- Settles O13: every TimedWrite of an expansion is well built. -/
theorem everyPayloadLeavesEnableClear : Obligations.EveryPayloadLeavesEnableClear :=
  fun _ _ _ h htw => payloadOk_iff.1 (payloadOk_of_mem_expand h htw)

/-! ## Another wiring -/

/-- What of a TimedWrite no legal PinMap moves: its data lines, its hold and its pair tag (R113). -/
def TimedWrite.withoutFlags (tw : TimedWrite) : BitVec 4 × BitVec 16 × Pair :=
  (tw.payload.extractLsb' 4 4, tw.hold, tw.pair)

/-- A byte's pair without the flags is told by the byte alone (R107, R121). -/
theorem byteWrites_withoutFlags (h : pinMapOk pm = true) (kind : FrameKind) (v : Byte) :
    (byteWrites pm kind v).map TimedWrite.withoutFlags =
      [(v.extractLsb' 4 4, holdStdUs, .first), (v.extractLsb' 0 4, holdStdUs, .second)] := by
  simp [byteWrites, TimedWrite.withoutFlags, hiByte_nibbles h, loByte_nibbles]

/-- A mode-switch nibble without the flags (R112, R122). -/
theorem modeWrites_withoutFlags (h : pinMapOk pm = true) :
    (modeWrites pm).map TimedWrite.withoutFlags = [(2#4, holdInitUs, .none)] := by
  have hmode : (modeByte pm).extractLsb' 4 4 = 2#4 := (hiByte_nibbles h .cmd 0x20#8).1
  simp [modeWrites, TimedWrite.withoutFlags, hmode]

/-- A row print without the flags is the same under any two legal PinMaps (R113, R123). -/
theorem rowWrites_withoutFlags_eq (h : pinMapOk pm = true) (h' : pinMapOk pm' = true) (r : Row) (text : List Byte) :
    (rowWrites pm r text).map TimedWrite.withoutFlags = (rowWrites pm' r text).map TimedWrite.withoutFlags := by
  simp only [rowWrites, List.map_append, List.map_flatMap, byteWrites_withoutFlags h, byteWrites_withoutFlags h']

/-- An expansion without the flags is the same under any two legal PinMaps (R113, R132). -/
theorem expand_withoutFlags_eq (h : pinMapOk pm = true) (h' : pinMapOk pm' = true) (i : Instr) :
    (expand pm i).map TimedWrite.withoutFlags = (expand pm' i).map TimedWrite.withoutFlags := by
  cases i with
  | init =>
    simp only [expand, initWrites, List.map_append, List.map_flatten, List.map_replicate, modeWrites_withoutFlags h,
      modeWrites_withoutFlags h', byteWrites_withoutFlags h, byteWrites_withoutFlags h', rowWrites_withoutFlags_eq h h']
  | sendCmd | sendData => simp only [expand, byteWrites_withoutFlags h, byteWrites_withoutFlags h']
  | printRow1 | printRow2 => exact rowWrites_withoutFlags_eq h h' _ _
  | close => rfl

/-- Settles O14: the expansions without the flags are one list. -/
theorem remappingMovesOnlyFlagBits : Obligations.RemappingMovesOnlyFlagBits := by
  intro pm pm' i h h'
  have hsame := expand_withoutFlags_eq h h' i
  refine ⟨by simpa using congrArg List.length hsame, fun k tw tw' htw htw' => ?_⟩
  have hk : tw.withoutFlags = tw'.withoutFlags := by
    simpa [htw, htw'] using congrArg (·[k]?) hsame
  simpa [TimedWrite.withoutFlags] using hk

end Sys2Proof.Machine
end

section
/-!
PROOF. The Protocol Engine's lists (spec/41_protocol_engine.md rules R120 to R129). A row print is its base command's pair and
then the pairs of the padded text, so that what is at a place of it is half of the byte at half that place.
-/

namespace Sys2Proof.Machine

variable {pm : PinMap} {tws : List TimedWrite} {i : Instr}

/-! ## Row prints -/

/-- The data bytes of a row print: the text, and spaces where it is shorter than the row (R123, R125). -/
def paddedText (text : List Byte) : List Byte := text ++ List.replicate (padCount text.length) padChar

theorem paddedText_length (text : List Byte) : (paddedText text).length = max text.length 17 := by
  simp only [paddedText, padCount, rowWidth, List.length_append, List.length_replicate]
  omega

/-- Where the text has ended there are spaces (R125). -/
theorem paddedText_getElem? {text : List Byte} {k : Nat} (hk : k < max text.length 17) :
    (paddedText text)[k]? = some (text[k]?.getD 0x20#8) := by
  by_cases htext : k < text.length
  · rw [paddedText, List.getElem?_append_left htext, List.getElem?_eq_getElem htext]
    rfl
  · have hpad : k - text.length < padCount text.length := by
      simp only [padCount, rowWidth]
      omega
    rw [paddedText, List.getElem?_append_right (by omega), List.getElem?_replicate_of_lt hpad,
      List.getElem?_eq_none (by omega)]
    rfl

/-- A row print, the base command's two halves in front (R123). -/
theorem rowWrites_eq_cons (r : Row) (text : List Byte) :
    rowWrites pm r text =
      ⟨hiByte (nib pm .cmd) (rowBase r), holdStdUs, .first⟩ ::
        ⟨loByte (nib pm .cmd) (rowBase r), holdStdUs, .second⟩ :: (paddedText text).flatMap (byteWrites pm .data) := by
  rw [rowWrites, List.append_assoc, ← List.flatMap_append]
  rfl

/-- The byte at place `k` has its high half at `2k` and its low half after it (R121). -/
theorem flatMap_byteWrites_getElem? {kind : FrameKind} {bytes : List Byte} {k : Nat} {v : Byte} (hv : bytes[k]? = some v) :
    (bytes.flatMap (byteWrites pm kind))[2 * k]? = some ⟨hiByte (nib pm kind) v, holdStdUs, .first⟩ ∧
      (bytes.flatMap (byteWrites pm kind))[2 * k + 1]? = some ⟨loByte (nib pm kind) v, holdStdUs, .second⟩ := by
  induction bytes generalizing k with
  | nil => cases hv
  | cons b rest ih =>
    cases k with
    | zero => cases hv; exact ⟨rfl, rfl⟩
    | succ k => exact ih hv

/-- Every TimedWrite of a row print holds for 1000 µs (R121, R123). -/
theorem hold_of_mem_rowWrites {r : Row} {text : List Byte} {tw : TimedWrite} (h : tw ∈ rowWrites pm r text) :
    tw.hold = holdStdUs := by
  simp only [rowWrites_eq_cons, List.mem_cons, List.mem_flatMap] at h
  obtain rfl | rfl | ⟨v, -, h⟩ := h
  · rfl
  · rfl
  · obtain rfl | rfl := mem_byteWrites h <;> rfl

theorem rowWrites_length_eq_max (r : Row) (text : List Byte) :
    (rowWrites pm r text).length = 2 * (1 + max text.length 17) := by
  rw [rowWrites_eq_cons, List.length_cons, List.length_cons, flatMap_byteWrites_length, paddedText_length]
  omega

/-- Where all holds are one, their sum is that many times it (R249). -/
theorem holdSum_of_hold_eq {hold : BitVec 16} (h : ∀ tw ∈ tws, tw.hold = hold) :
    holdSum tws = tws.length * hold.toNat := by
  have hall : ∀ n ∈ tws.map fun tw => tw.hold.toNat, n = hold.toNat := by
    simpa using fun tw htw => congrArg BitVec.toNat (h tw htw)
  simpa [holdSum] using List.sum_eq_card_nsmul _ _ hall

theorem holdSum_rowWrites (r : Row) (text : List Byte) :
    holdSum (rowWrites pm r text) = 2000 * (1 + max text.length 17) := by
  have hstd : holdStdUs.toNat = 1000 := rfl
  rw [holdSum_of_hold_eq fun _ => hold_of_mem_rowWrites, rowWrites_length_eq_max, hstd]
  omega

/-- Settles O15: the padded text has `max L 17` bytes, and every hold is the standard one. -/
theorem rowPrintLengthAndHolds : Obligations.RowPrintLengthAndHolds := by
  intro pm r text
  have hlen := rowWrites_length_eq_max (pm := pm) r text
  exact ⟨hlen, fun _ => hold_of_mem_rowWrites, holdSum_rowWrites r text, by omega⟩

/-- Settles O16: the places of a row print after the base command are those of the padded text's pairs. -/
theorem rowPrintPositions : Obligations.RowPrintPositions := by
  intro pm r text
  have hbase : (if r = .one then 0x80#8 else 0xA8#8) = rowBase r := by cases r <;> rfl
  rw [hbase, rowWrites_eq_cons]
  refine ⟨rfl, rfl, fun k hk => ?_⟩
  obtain ⟨hhi, hlo⟩ := flatMap_byteWrites_getElem? (pm := pm) (kind := .data) (paddedText_getElem? hk)
  exact ⟨by rwa [Nat.add_comm], by rwa [Nat.add_comm]⟩

/-! ## INIT -/

theorem holdSum_byteWrites (kind : FrameKind) (v : Byte) : holdSum (byteWrites pm kind v) = 2000 := by
  simp [holdSum, byteWrites, holdStdUs]

theorem holdSum_modeWrites : holdSum (modeWrites pm) = 5000 := by
  simp [holdSum, modeWrites, holdInitUs]

/-- The handshake's two mode nibbles, four commands and two blank rows (R126). -/
theorem initWrites_length : (initWrites pm).length = 82 := by
  simp [initWrites, modeSwitchCount, modeWrites, rowWrites_length_eq_max]

theorem holdSum_initWrites : holdSum (initWrites pm) = 90000 := by
  simp [initWrites, modeSwitchCount, List.replicate_succ, holdSum_append, holdSum_modeWrites, holdSum_byteWrites,
    holdSum_rowWrites]

/-- Settles O17: the sequence by unfolding, its length and its holds part by part. -/
theorem initSequenceOrder : Obligations.InitSequenceOrder :=
  fun _ => ⟨rfl, initWrites_length, holdSum_initWrites⟩

/-! ## Every request -/

/-- CLOSE alone has no TimedWrites; a text too long for a header would have some all the same (R129). -/
theorem expand_eq_nil_iff : expand pm i = [] ↔ i = .close := by
  cases i with
  | init | sendCmd | sendData => simp [expand, initWrites, byteWrites]
  | printRow1 | printRow2 => simp [expand, rowWrites_eq_cons]
  | close => simp [expand]

/-- Settles O18: each expansion is made of units, and its length is `expand_length`'s but for CLOSE. -/
theorem expansionsAreMadeOfUnits : Obligations.ExpansionsAreMadeOfUnits := by
  refine fun pm i => ⟨isUnits_expand i, expand_eq_nil_iff, fun hw => ?_⟩
  by_cases hi : i = .close
  · simp [expand_eq_nil_iff.2 hi]
  · exact (expand_length hw hi).2

end Sys2Proof.Machine
end

section
/-!
PROOF. One request from its admission to the end of its last hold (spec/42_dispatcher.md rules R142 to R150;
spec/43_session_requests.md rules R170 to R175). A move of the agenda whose guard holds is one step of the run; the seven
moves of a pulse carry one TimedWrite over the bus; and the pulses of a list of units, put one after the other, write the list
and leave the lock free.
-/

namespace Sys2Proof.Machine

variable {s t u : State} {p : Nat} {port : Port} {tw : TimedWrite} {tws tws' : List TimedWrite} {i : Instr}
  {later : List Move}

/-! ## The agenda -/

/-- A move of the agenda whose guard holds is taken (log 7). -/
theorem step_of_agenda {m : Move} (ha : s.agenda = m :: later)
    (hg : State.enabled { s with agenda := later } m = true)
    (hx : State.perform { s with agenda := later } m = .next t) : step s = .next t := by
  have hadv : s.advance = { s with agenda := later } := by rw [State.advance, ha]
  have hmove : s.nextMove = m := by rw [State.nextMove, ha]
  rw [step_of_enabled (by rwa [hadv, hmove]), hadv, hmove, hx]

theorem run_step {k : Nat} (hx : step s = .next t) (hrun : Host.Core.run core k t = .next u) :
    Host.Core.run core (k + 1) s = .next u :=
  (run_succ k hx).trans hrun

/-! ## The moves of a pulse -/

theorem step_busDone (ha : s.agenda = .busDone :: later) (hb : s.busPending = true) :
    step s = .next { s with
      agenda := later, busTrace := s.busTrace ++ [(s.busData, s.nowUs)], busPending := false } :=
  step_of_agenda ha hb rfl

theorem step_endHi (ha : s.agenda = .endHi :: later) (hph : s.phase = .wrHi) (hb : s.busPending = false)
    (hv : s.slot.valid = true) :
    step s = .next { s with
      agenda := later, phase := .wrLo, busData := clearBit s.slot.payload (ePos s.pinMap), busPending := true } :=
  step_of_agenda ha (by simp [State.enabled, State.canEndHi, hph, hb]) (if_pos hv)

theorem step_endLo (ha : s.agenda = .endLo :: later) (hph : s.phase = .wrLo) (hb : s.busPending = false)
    (hv : s.slot.valid = true) :
    step s = .next { s with agenda := later, holdUntil := s.nowUs + s.slot.hold.toNat, phase := .hold } :=
  step_of_agenda ha (by simp [State.enabled, State.canEndLo, hph, hb]) (if_pos hv)

theorem step_tick {n : Nat} (ha : s.agenda = .tick n :: later) (hn : 1 ≤ n) :
    step s = .next { s with agenda := later, nowUs := s.nowUs + n } :=
  step_of_agenda ha (decide_eq_true hn) rfl

/-- END_HOLD before CLOSE takes effect: the dispatcher goes back to `IDLE` (R147). -/
theorem step_endHold (ha : s.agenda = .endHold :: later) (hph : s.phase = .hold) (hnow : s.holdUntil ≤ s.nowUs)
    (hc : s.closed = false) :
    step s = .next { s with agenda := later, slot := { s.slot with valid := false }, phase := .idle } :=
  step_of_agenda ha (by simp [State.enabled, State.canEndHold, hph, hnow]) (by simp [State.perform, State.endHold, hc])

/-! ## One pulse -/

/-- The state once both bus writes of the TimedWrite in the slot have completed (R145, R213). -/
def State.written (s : State) (later : List Move) : State :=
  { s with
    agenda := later
    phase := .wrLo
    busPending := false
    busData := clearBit s.slot.payload (ePos s.pinMap)
    busTrace := s.busTrace ++ [(s.busData, s.nowUs)] ++ [(clearBit s.slot.payload (ePos s.pinMap), s.nowUs)] }

/-- The state once the hold of the TimedWrite in the slot is over, no longer than it asks (R146, R147). -/
def State.held (s : State) (later : List Move) : State :=
  { s with
    agenda := later
    slot := { s.slot with valid := false }
    phase := .idle
    holdUntil := s.nowUs + s.slot.hold.toNat
    nowUs := s.nowUs + s.slot.hold.toNat }

theorem run_written (ha : s.agenda = .busDone :: .endHi :: .busDone :: later) (hph : s.phase = .wrHi)
    (hb : s.busPending = true) (hv : s.slot.valid = true) : Host.Core.run core 3 s = .next (s.written later) := by
  refine run_step (step_busDone ha hb) ?_
  refine run_step (step_endHi rfl hph rfl hv) ?_
  exact run_step (step_busDone rfl rfl) rfl

theorem run_held (ha : s.agenda = .endLo :: .tick s.slot.hold.toNat :: .endHold :: later) (hph : s.phase = .wrLo)
    (hb : s.busPending = false) (hv : s.slot.valid = true) (hc : s.closed = false) (hhold : 1 ≤ s.slot.hold.toNat) :
    Host.Core.run core 3 s = .next (s.held later) := by
  refine run_step (step_endLo ha hph hb hv) ?_
  refine run_step (step_tick rfl hhold) ?_
  exact run_step (step_endHold rfl rfl (Nat.le_refl _) hc) rfl

/-- From `s` to `t` the TimedWrites `tws` are carried out: their bytes are on the bus, their holds are over, and the
dispatcher is idle (R142 to R150, R249). -/
structure State.CarriesOut (tws : List TimedWrite) (s t : State) : Prop where
  bytes : t.busTrace.map Prod.fst = s.busTrace.map Prod.fst ++ tws.flatMap (busBytes s.pinMap)
  time : t.nowUs = s.nowUs + holdSum tws
  config : s.SameConfig t
  closed : t.closed = s.closed
  phase : t.phase = .idle
  notPending : t.busPending = false

theorem State.CarriesOut.trans (h : s.CarriesOut tws t) (h' : t.CarriesOut tws' u) : s.CarriesOut (tws ++ tws') u := by
  obtain ⟨hpm, hch, hba, hce⟩ := h.config
  obtain ⟨hpm', hch', hba', hce'⟩ := h'.config
  exact {
    bytes := by rw [h'.bytes, h.bytes, hpm, List.flatMap_append, List.append_assoc]
    time := by rw [h'.time, h.time, holdSum_append, Nat.add_assoc]
    config := ⟨hpm'.trans hpm, hch'.trans hch, hba'.trans hba, hce'.trans hce⟩
    closed := h'.closed.trans h.closed
    phase := h'.phase
    notPending := h'.notPending }

/-- The moves of a pulse after its ACCEPT. -/
def afterAccept (hold : BitVec 16) : List Move := [.busDone, .endHi, .busDone, .endLo, .tick hold.toNat, .endHold]

/-- Both bus writes and the hold, from the state ACCEPT leaves (R145 to R147). -/
theorem run_afterAccept (ha : s.agenda = afterAccept s.slot.hold ++ later) (hph : s.phase = .wrHi)
    (hb : s.busPending = true) (hv : s.slot.valid = true) (hc : s.closed = false) (hhold : 1 ≤ s.slot.hold.toNat) :
    Host.Core.run core 6 s = .next ((s.written (.endLo :: .tick s.slot.hold.toNat :: .endHold :: later)).held later) :=
  (run_add core 3 3 s _ (run_written ha hph hb hv)).trans (run_held rfl rfl rfl hv hc hhold)

/-- The last TimedWrite of a request completes it, and INIT's sets `INIT_DONE` (R144). -/
theorem accept_initDone (hg : s.canAccept p = true) (hp : s.ports[p]? = some port) :
    (s.accept p).initDone =
      if port.idx + 1 = port.units.length then initDoneAfter s.initDone port.op else s.initDone := by
  obtain ⟨port₀, tw, hp₀, -, -, -, -, -, -, he⟩ := accept_of_canAccept hg
  cases hp.symm.trans hp₀
  rw [he]
  split <;> rfl

/-- The seven moves of a pulse, where ACCEPT's guard holds (R142 to R147). -/
theorem run_pulse (ha : s.agenda = pulseMoves p tw ++ later) (hg : s.canAccept p = true) (hp : s.ports[p]? = some port)
    (hu : port.units[port.idx]? = some tw) (hhold : 1 ≤ tw.hold.toNat) :
    ∃ t, Host.Core.run core 7 s = .next t ∧ s.CarriesOut [tw] t ∧ t.agenda = later ∧
      t.lock = lockAfter s.lock p tw.pair ∧
      t.initDone = (if port.idx + 1 = port.units.length then initDoneAfter s.initDone port.op else s.initDone) ∧
      t.ports = s.ports.set p
        (if port.idx + 1 = port.units.length then port.finish .ok else { port with idx := port.idx + 1 }) := by
  have hstep : step s = .next (State.accept { s with agenda := afterAccept tw.hold ++ later } p) :=
    step_of_agenda ha hg rfl
  have hg' : State.canAccept { s with agenda := afterAccept tw.hold ++ later } p = true := hg
  have hdone := accept_initDone hg' hp
  obtain ⟨-, -, he⟩ := canAccept_iff.1 hg'
  obtain ⟨-, -, -, -, -, hopen⟩ := eligible_iff.1 he
  obtain ⟨hconf, -, hclosed, -, -, hnow, htrace, hagenda, -⟩ := accept_frame hg'
  obtain ⟨hpending, hbyte⟩ := accept_bus hg'
  obtain ⟨port₀, port', tw₀, hp₀, -, hu₀, hports, hlock, hslot, hphase, hport'⟩ := accept_effect hg'
  cases hp.symm.trans hp₀
  cases hu.symm.trans hu₀
  generalize State.accept _ p = a at *
  have hholdSlot : a.slot.hold = tw.hold := by rw [hslot]
  have hrun := run_afterAccept (hholdSlot ▸ hagenda) hphase hpending (by rw [hslot]) (hclosed.trans hopen)
    (hholdSlot ▸ hhold)
  refine ⟨_, run_step hstep hrun, ?_, rfl, hlock, hdone, ?_⟩
  · have ⟨hpm, _⟩ := hconf
    exact {
      bytes := by simp [State.held, State.written, busBytes, htrace, hbyte, hslot, hpm]
      time := by simp [State.held, State.written, holdSum, hnow, hslot]
      config := hconf
      closed := hclosed
      phase := rfl
      notPending := rfl }
  · refine hports.trans (congrArg _ ?_)
    obtain ⟨rfl, hlast⟩ | ⟨rfl, hmore⟩ := hport'
    · rw [if_pos hlast]
    · rw [if_neg hmore]

/-! ## A list of units -/

/-- Producer `p` holds the lock in the middle of a pair, or the lock is free between two units (R47, R120). -/
def LockFits (p : Nat) (lock : Option Nat) (tws : List TimedWrite) : Prop :=
  lock = none ∧ isUnits tws = true ∨ lock = some p ∧ secondNext tws = true

/-- The first half of a pair takes the lock, its second half releases it, and a lone TimedWrite leaves it free (R142). -/
theorem lockFits_lockAfter {lock : Option Nat} (h : LockFits p lock (tw :: tws)) :
    LockFits p (lockAfter lock p tw.pair) tws := by
  obtain ⟨rfl, hunits⟩ | ⟨rfl, hsecond⟩ := h
  · cases hpair : tw.pair with
    | none => exact .inl ⟨rfl, by simpa [isUnits, hpair] using hunits⟩
    | first =>
      refine .inr ⟨rfl, ?_⟩
      cases tws with
      | nil => simp [isUnits, hpair] at hunits
      | cons => simpa [isUnits, secondNext, hpair] using hunits
    | second => simp [isUnits, hpair] at hunits
  · obtain ⟨hpair, hrest⟩ : tw.pair = .second ∧ isUnits tws = true := by simpa [secondNext] using hsecond
    exact .inl ⟨by rw [hpair]; rfl, hrest⟩

/-- Producer `p` runs, `tws` are its TimedWrites not yet accepted, and the dispatcher can take the next (R141, R142). -/
structure State.Offers (s : State) (p : Nat) (port : Port) (tws : List TimedWrite) : Prop where
  atPort : s.ports[p]? = some port
  running : port.state = .run
  left : port.units.drop port.idx = tws
  phase : s.phase = .idle
  notPending : s.busPending = false
  isOpen : s.closed = false
  lock : LockFits p s.lock tws

theorem State.Offers.next (h : s.Offers p port (tw :: tws)) :
    s.canAccept p = true ∧ port.units[port.idx]? = some tw ∧
      (port.idx + 1 = port.units.length ↔ tws = []) := by
  have hu : port.units[port.idx]? = some tw := by rw [← List.head?_drop, h.left]; rfl
  have hlen : port.units.length - port.idx = tws.length + 1 := by simpa using congrArg List.length h.left
  have hlock : s.lock = none ∨ s.lock = some p := h.lock.imp And.left And.left
  have helig : s.eligible p = true := eligible_iff.2 ⟨port, h.atPort, h.running, by omega, hlock, h.isOpen⟩
  refine ⟨canAccept_iff.2 ⟨h.phase, h.notPending, helig⟩, hu, ?_⟩
  rw [← List.length_eq_zero_iff]
  omega

/-- A request that is started, alone, offers its first TimedWrite (R170). -/
theorem offers_start {r : Request} {op : BitVec 4} (hp : s.ports[s.cur]? = some port) (hph : s.phase = .idle)
    (hb : s.busPending = false) (hc : s.closed = false) (hl : s.lock = none) (hunits : isUnits tws = true) :
    (s.start port r op tws).Offers s.cur { port with op := op, units := tws, idx := 0, state := .run, req := r } tws where
  atPort := setPort_getElem?_self hp
  running := rfl
  left := rfl
  phase := hph
  notPending := hb
  isOpen := hc
  lock := .inl ⟨hl, hunits⟩

/-- Pulse after pulse the units are carried out; the last ends the request with `OK` and leaves the lock free (R142, R144). -/
theorem run_pulses (h : s.Offers p port tws) (hne : tws ≠ []) (hhold : ∀ tw ∈ tws, 1 ≤ tw.hold.toNat)
    (ha : s.agenda = tws.flatMap (pulseMoves p) ++ later) :
    ∃ t, Host.Core.run core (7 * tws.length) s = .next t ∧ s.CarriesOut tws t ∧ t.agenda = later ∧ t.lock = none ∧
      t.initDone = initDoneAfter s.initDone port.op ∧ t.ports = s.ports.set p (port.finish .ok) := by
  induction tws generalizing s port with
  | nil => exact absurd rfl hne
  | cons tw tws ih =>
    obtain ⟨hg, hu, hlast⟩ := h.next
    obtain ⟨htw, htws⟩ := List.forall_mem_cons.1 hhold
    rw [List.flatMap_cons, List.append_assoc] at ha
    obtain ⟨t, hrun, hout, hagenda, hlock, hdone, hports⟩ := run_pulse ha hg h.atPort hu htw
    have hfits : LockFits p t.lock tws := hlock ▸ lockFits_lockAfter h.lock
    by_cases hend : tws = []
    · rw [if_pos (hlast.2 hend)] at hdone hports
      subst hend
      exact ⟨t, hrun, hout, hagenda, by simpa [LockFits, secondNext, isUnits] using hfits, hdone, hports⟩
    · rw [if_neg (mt hlast.1 hend)] at hdone hports
      have hoffers : t.Offers p { port with idx := port.idx + 1 } tws :=
        { atPort := hports ▸ setPort_getElem?_self h.atPort
          running := h.running
          left := by simpa [drop_of_getElem? hu] using h.left
          phase := hout.phase
          notPending := hout.notPending
          isOpen := hout.closed.trans h.isOpen
          lock := hfits }
      obtain ⟨u, hrun', hout', hagenda', hlock', hdone', hports'⟩ := ih hoffers hend htws hagenda
      refine ⟨u, ?_, hout.trans hout', hagenda', hlock', by rw [hdone', hdone], ?_⟩
      · rw [List.length_cons, Nat.mul_succ, Nat.add_comm]
        exact (run_add core 7 _ s t hrun).trans hrun'
      · rw [hports', hports, List.set_set]
        rfl

/-! ## Admission -/

/-- A request that can be encoded is delivered whole (R80). -/
theorem whole_recordOf (hw : wellFormed i = true) : (recordOf i).whole = true := by
  obtain ⟨-, hrsv, -, -, hlen⟩ := headerFields i
  simp [Record.whole, recordOf, recordTextLength, hrsv, hlen hw]

/-- INIT sets `INIT_STARTED` when it is admitted, no other request does (R35, R170). -/
def State.startedBy (s : State) (i : Instr) : State := { s with initStarted := s.initStarted || decide (i = .init) }

theorem startedBy_of_ne_init (s : State) (hi : i ≠ .init) : s.startedBy i = s := by
  simp [State.startedBy, hi]

theorem startedBy_init (s : State) : s.startedBy .init = s.setInitStarted := by
  simp [State.startedBy, State.setInitStarted]

/-- ADMIT where no cause of rejection applies: the request's TimedWrites are latched, and INIT sets `INIT_STARTED` (R170,
R171). -/
theorem exec_of_admissible (hp : s.ports[s.cur]? = some port) (hidle : port.state = .idle) (hcfg : s.cfgErr = false)
    (hopen : s.closed = false) (hi : i ≠ .close) (hd : if i = .init then s.initStarted = false else s.initDone = true) :
    exec i s = .next ((s.startedBy i).start port (.legal i) (opcode i) (expand s.pinMap i)) := by
  cases i with
  | init =>
    have hs : s.initStarted = false := by simpa using hd
    refine (admission_of_idle hp hidle).trans ?_
    simp [hcfg, hopen, hs, startedBy_init]
  | close => exact absurd rfl hi
  | sendCmd | sendData | printRow1 | printRow2 =>
    have hs : s.initDone = true := by simpa using hd
    refine (admission_of_idle hp hidle).trans ?_
    simp [hcfg, hopen, hs, startedBy_of_ne_init]

/-- Every hold of an expansion is one of the two the Protocol Engine makes, so the time source has something to do (R90). -/
theorem one_le_hold_of_mem_expand {pm : PinMap} (h : tw ∈ expand pm i) : 1 ≤ tw.hold.toNat := by
  obtain hm | ⟨kind, v, hb⟩ := mem_expand h
  · obtain rfl := List.mem_singleton.1 hm
    exact (by decide : 1 ≤ holdInitUs.toNat)
  · have hstd : 1 ≤ holdStdUs.toNat := by decide
    obtain rfl | rfl := mem_byteWrites hb <;> exact hstd

theorem initDoneAfter_opcode (done : Bool) (i : Instr) : initDoneAfter done (opcode i) = (done || decide (i = .init)) := by
  cases i <;> simp [initDoneAfter, opcode]

/-- A started request, alone, is carried out to its `OK` (R129, R144, R170). -/
theorem run_started (hp : s.ports[s.cur]? = some port) (hph : s.phase = .idle) (hb : s.busPending = false)
    (hc : s.closed = false) (hl : s.lock = none) (hi : i ≠ .close)
    (ha : s.agenda = (expand s.pinMap i).flatMap (pulseMoves s.cur) ++ later) :
    ∃ t, Host.Core.run core (7 * (expand s.pinMap i).length)
        ((s.startedBy i).start port (.legal i) (opcode i) (expand s.pinMap i)) = .next t ∧
      s.CarriesOut (expand s.pinMap i) t ∧ t.agenda = later ∧ t.lock = none ∧
      t.initDone = (s.initDone || decide (i = .init)) ∧
      t.ports = s.ports.set s.cur { port with
        state := .idle, op := opcode i, req := .legal i, units := [], idx := 0
        responses := port.responses ++ [(.legal i, .ok)] } := by
  have hoffers := offers_start (s := s.startedBy i) (r := .legal i) (op := opcode i) hp hph hb hc hl
    (isUnits_expand (pm := s.pinMap) i)
  obtain ⟨t, hrun, ⟨hbytes, htime, hconf, hclosed, hphase, hpending⟩, hagenda, hfree, hdone, hports⟩ :=
    run_pulses hoffers (mt expand_eq_nil_iff.1 hi) (fun _ => one_le_hold_of_mem_expand) ha
  exact ⟨t, hrun, ⟨hbytes, htime, hconf, hclosed, hphase, hpending⟩, hagenda, hfree,
    hdone.trans (initDoneAfter_opcode s.initDone i), hports.trans (List.set_set ..)⟩

/-- The state in which ADMIT meets the request it presents, `later` being the moves still to come (R170). -/
def State.presented (s : State) (p : Nat) (port : Port) (rest : List Record) (later : List Move) : State :=
  State.present { s with agenda := later } p port rest

theorem presented_getElem? (hp : s.ports[p]? = some port) (rest : List Record) (later : List Move) :
    (s.presented p port rest later).ports[p]? = some { port with input := rest } :=
  setPort_getElem?_self hp

theorem step_admitReq {rest : List Record} {r : Record} (ha : s.agenda = .admitReq p :: later) (hp : s.ports[p]? = some port)
    (hidle : port.state = .idle) (hin : port.input = r :: rest) (hw : r.whole = true) (hr : r.request = some i)
    (hx : exec i (s.presented p port rest later) = .next t) : step s = .next t := by
  refine step_of_agenda ha (canAdmit_iff.2 ⟨port, r, rest, hp, hidle, hin, hw⟩) ?_
  simpa [State.presented, State.perform, State.admitReq, hp, hin, hr] using hx

/-- Settles O55: ADMIT latches the expansion, which is made of units, and `run_started` carries it out. -/
theorem admittedRequestWritesItsBytes : Obligations.AdmittedRequestWritesItsBytes := by
  intro s p port i rest later hp hidle hin hw hi hcfg hopen hd hph hlock hpending ha
  have hpresented := presented_getElem? hp rest ((expand s.pinMap i).flatMap (pulseMoves p) ++ later)
  have hadmit := step_admitReq ha hp hidle hin (whole_recordOf hw) (requestOf_encodeHeader i)
    (exec_of_admissible hpresented hidle hcfg hopen hi hd)
  obtain ⟨t, hrun, ⟨hbytes, htime, hconf, hclosed, hphase, hpending'⟩, hagenda, hfree, hdone, hports⟩ :=
    run_started hpresented hph hpending hopen hlock hi rfl
  have hset : t.ports = s.ports.set p { port with
      input := rest, op := opcode i, req := .legal i, units := [], idx := 0
      responses := port.responses ++ [(.legal i, .ok)] } := by
    rw [hidle]
    exact hports.trans (List.set_set ..)
  have hcount : Host.Core.run core (1 + 7 * (expand s.pinMap i).length) s = .next t := by
    rw [Nat.add_comm]
    exact run_step hadmit hrun
  exact ⟨t, hcount, hbytes, htime, hset ▸ setPort_getElem?_self hp, samePortsBut_setPort hset, hconf, hdone,
    hclosed.trans hopen, hphase, hfree, hpending', hagenda⟩

end Sys2Proof.Machine
end

section
/-!
PROOF. A step whose move is known (spec/42_dispatcher.md rules R141 to R148): where the guard does not hold the move is used up
and nothing else changes, and where it holds the dispatcher's steps do what their rules say.
-/

namespace Sys2Proof.Machine

variable {s : State} {p : Nat} {port : Port} {tw : TimedWrite}

/-! ## Guards -/

/-- No guard reads the scheduling fields (log 7). -/
@[simp] theorem State.advance_enabled (s : State) (m : Move) : s.advance.enabled m = s.enabled m := by
  unfold State.advance
  split <;> rfl

/-- A move is taken where its guard holds. -/
theorem step_of_move {m : Move} (hm : s.nextMove = m) (hg : s.enabled m = true) : step s = s.advance.perform m := by
  subst hm
  exact step_of_enabled (by simpa using hg)

/-- A move whose guard does not hold is used up (log 8). -/
theorem step_of_waiting {m : Move} (hm : s.nextMove = m) (hg : s.enabled m ≠ true) : step s = .next s.advance := by
  subst hm
  exact step_of_disabled (by simpa using hg)

theorem canEndHi_iff : s.canEndHi = true ↔ s.phase = .wrHi ∧ s.busPending = false := by
  simp [State.canEndHi]

theorem canEndLo_iff : s.canEndLo = true ↔ s.phase = .wrLo ∧ s.busPending = false := by
  simp [State.canEndLo]

theorem canEndHold_iff : s.canEndHold = true ↔ s.phase = .hold ∧ s.holdUntil ≤ s.nowUs := by
  simp [State.canEndHold]

theorem canExit_iff : s.canExit = true ↔ s.phase = .idle ∧ s.closed = true := by
  simp [State.canExit]

/-! ## Waiting -/

/-- ACCEPT waits for an idle dispatcher and an eligible producer (R141, R142). -/
theorem step_accept_waits (hm : s.nextMove = .accept p)
    (hw : s.phase ≠ .idle ∨ s.busPending = true ∨ s.closed = true ∨ (∃ q, s.lock = some q ∧ q ≠ p) ∨
      ∀ port : Port, s.ports[p]? = some port → port.state ≠ .run ∨ port.units.length ≤ port.idx) :
    step s = .next s.advance := by
  refine step_of_waiting hm fun hg => ?_
  obtain ⟨hidle, hpending, he⟩ := canAccept_iff.1 hg
  obtain ⟨port, hp, hr, hidx, hlock, hopen⟩ := eligible_iff.1 he
  obtain hbusy | hbusy | hclosed | ⟨q, hheld, hqp⟩ | hport := hw
  · exact hbusy hidle
  · cases hpending.symm.trans hbusy
  · cases hopen.symm.trans hclosed
  · obtain hfree | hself := hlock
    · cases hheld.symm.trans hfree
    · exact hqp (by simpa using hheld.symm.trans hself)
  · exact (hport port hp).elim (absurd hr) (Nat.not_le_of_lt hidx)

/-- CLOSE_EFFECT waits for the lock and for a CLOSE (R176). -/
theorem step_closeEffect_waits (hm : s.nextMove = .closeEffect p)
    (hw : s.lock ≠ none ∨ s.closed = true ∨ ∀ port : Port, s.ports[p]? = some port → port.state ≠ .closeWait) :
    step s = .next s.advance := by
  refine step_of_waiting hm fun hg => ?_
  obtain ⟨port, hp, hwait, hfree, hopen⟩ := canClose_iff.1 hg
  obtain hheld | hclosed | hport := hw
  · exact hheld hfree
  · cases hopen.symm.trans hclosed
  · exact hport port hp hwait

/-- ADMIT waits for an idle port and a whole record (R170, R179, R80). -/
theorem step_admitReq_waits (hm : s.nextMove = .admitReq p)
    (hw : ∀ port : Port, s.ports[p]? = some port → port.state ≠ .idle ∨ ∀ r ∈ port.input.head?, r.whole = false) :
    step s = .next s.advance := by
  refine step_of_waiting hm fun hg => ?_
  obtain ⟨port, r, rest, hp, hidle, hin, hwhole⟩ := canAdmit_iff.1 hg
  obtain hbusy | hrecord := hw port hp
  · exact hbusy hidle
  · cases hwhole.symm.trans (hrecord r (by simp [hin]))

/-- Settles O39: in each clause the guard contradicts what the clause says of the state. -/
theorem waitingAgentsChangeNothing : Obligations.WaitingAgentsChangeNothing := by
  refine fun s => ⟨fun p => step_accept_waits, fun p => step_closeEffect_waits, fun p => step_admitReq_waits, ?_, ?_, ?_,
    ?_, ?_⟩
  · exact fun p r hm hpart => step_of_waiting hm fun hg => nomatch hpart.symm.trans hg
  · refine fun hm hw => step_of_waiting hm fun hg => ?_
    obtain ⟨hph, hb⟩ := canEndHi_iff.1 hg
    exact hw.elim (absurd hph) fun hb' => nomatch hb.symm.trans hb'
  · refine fun hm hw => step_of_waiting hm fun hg => ?_
    obtain ⟨hph, hb⟩ := canEndLo_iff.1 hg
    exact hw.elim (absurd hph) fun hb' => nomatch hb.symm.trans hb'
  · exact fun hm hw => step_of_waiting hm fun hg => hw (canEndHold_iff.1 hg).1
  · exact fun hm hw => step_of_waiting hm fun hg => hw (canExit_iff.1 hg).1

/-! ## ACCEPT -/

theorem lockAfter_eq_ite (lock : Option Nat) (p : Nat) (pair : Pair) :
    lockAfter lock p pair = if pair = .first then some p else if pair = .second then none else lock := by
  cases pair <;> rfl

/-- Settles O31: `accept_effect`, `accept_bus` and `accept_initDone` say what ACCEPT writes, `accept_frame` what it leaves. -/
theorem acceptTakesOneTimedWrite : Obligations.AcceptTakesOneTimedWrite := by
  intro s p port tw hm hp hph hb hr hu hl hopen
  obtain ⟨hidx, -⟩ := List.getElem?_eq_some_iff.1 hu
  have hg : s.enabled (.accept p) = true :=
    canAccept_iff.2 ⟨hph, hb, eligible_iff.2 ⟨port, hp, hr, hidx, hl, hopen⟩⟩
  have hg' : s.advance.canAccept p = true := (s.advance_enabled (.accept p)).trans hg
  have hp' : s.advance.ports[p]? = some port := by simpa using hp
  obtain ⟨port₀, port', tw₀, hp₀, -, hu₀, hports, hlock, hslot, hphase, hport'⟩ := accept_effect hg'
  cases hp'.symm.trans hp₀
  cases hu.symm.trans hu₀
  obtain ⟨hpending, hdata⟩ := accept_bus hg'
  obtain ⟨hconf, hstarted, hclosed, -, hhold, hnow, htrace, -, -⟩ := accept_frame hg'
  have hdone := accept_initDone hg' hp'
  have hself : (s.advance.accept p).ports[p]? = some port' := hports ▸ setPort_getElem?_self hp'
  have hothers : s.advance.SamePortsBut p (s.advance.accept p) := samePortsBut_setPort hports
  have ⟨hpm, _⟩ := hconf
  refine ⟨s.advance.accept p, step_of_move hm hg, hslot, ?_, ?_, hpending, hphase, ?_, by simpa using hstarted,
    by simpa using hclosed, by simpa using hhold, by simpa using hnow, by simpa using htrace,
    by simpa [State.SamePortsBut] using hothers, by simpa [State.SameConfig] using hconf⟩
  · simpa [lockAfter_eq_ite] using hlock
  · simpa [hslot, hpm] using hdata
  · obtain ⟨rfl, hlast⟩ | ⟨rfl, hmore⟩ := hport'
    · rw [if_pos hlast] at hdone ⊢
      exact ⟨hself, by simpa [initDoneAfter, opcode] using hdone⟩
    · rw [if_neg hmore] at hdone ⊢
      exact ⟨hself, by simpa using hdone⟩

/-! ## The dispatcher's other steps -/

/-- Settles O32: END_HI's guard holds, and its effect asks for a TimedWrite in the slot. -/
theorem endHiWritesEnableLow : Obligations.EndHiWritesEnableLow := by
  intro s hm hph hb
  rw [step_of_move hm (canEndHi_iff.2 ⟨hph, hb⟩)]
  constructor
  · intro hv
    simp [State.perform, State.endHi, State.busWrite, hv]
  · intro hv
    simp [State.perform, State.endHi, hv]

/-- Settles O33: END_LO's guard holds, and its effect asks for a TimedWrite in the slot. -/
theorem endLoStartsTheHold : Obligations.EndLoStartsTheHold := by
  intro s hm hph hb
  rw [step_of_move hm (canEndLo_iff.2 ⟨hph, hb⟩)]
  constructor
  · intro hv
    simp [State.perform, State.endLo, hv]
  · intro hv
    simp [State.perform, State.endLo, hv]

/-- Settles O34: END_HOLD's guard is that the hold's time has come. -/
theorem holdEndsNoEarlierThanItsTime : Obligations.HoldEndsNoEarlierThanItsTime := by
  refine fun s hm hph => ⟨fun hover => ?_, fun hearly => step_of_waiting hm fun hg => ?_⟩
  · rw [step_of_move hm (canEndHold_iff.2 ⟨hph, hover⟩)]
    simp [State.perform, State.endHold]
  · obtain ⟨-, hover⟩ := canEndHold_iff.1 hg
    exact Nat.not_lt_of_le hover hearly

/-- Settles O35: EXIT's guard in `IDLE` is that `CLOSED` is set. -/
theorem exitAfterClose : Obligations.ExitAfterClose := by
  refine fun s hm hph => ⟨fun hclosed => ?_, fun hopen => step_of_waiting hm fun hg => ?_⟩
  · exact step_of_move hm (canExit_iff.2 ⟨hph, hclosed⟩)
  · obtain ⟨-, hclosed⟩ := canExit_iff.1 hg
    cases hopen.symm.trans hclosed

end Sys2Proof.Machine
end

section
/-!
PROOF. A step in which the dispatcher does nothing (spec/42_dispatcher.md rules R149, R152, R154, R155), and who uses the bus
(spec/20_memory.md rules R60, R69). In a bus stall, in `EXITED` and under `CFG_ERR` no dispatcher step is enabled
(`State.DispatcherRests`), and no other agent touches dispatcher or bus but the Bus Writer and reset.
-/

namespace Sys2Proof.Machine

variable {s t : State} {p : Nat}

/-! ## What the other agents leave alone -/

/-- The five steps of the dispatcher (R142, R145 to R148). -/
def isDispatcherStep : Move → Bool
  | .accept _ | .endHi | .endLo | .endHold | .exit => true
  | .send .. | .admitReq _ | .closeEffect _ | .busDone | .tick _ | .reset _ => false

/-- No step of the dispatcher is enabled. -/
def State.DispatcherRests (s : State) : Prop := ∀ m : Move, isDispatcherStep m = true → s.enabled m = false

/-- The producers, the host and the time source touch neither the dispatcher nor the bus (R140). -/
theorem same_of_perform {m : Move} (hd : isDispatcherStep m = false) (hb : m ≠ .busDone) (hm : ∀ c, m ≠ .reset c)
    (hg : s.enabled m = true) (hx : s.perform m = .next t) : s.SameDispatcher t ∧ s.SameBus t := by
  cases m with
  | send p r =>
    cases hx
    obtain ⟨hdispatcher, hbus, -⟩ := writesPortOnly_issue s p r
    exact ⟨hdispatcher, hbus⟩
  | admitReq p =>
    obtain ⟨hdispatcher, hbus, -⟩ := writesPortOnly_of_admitReq hg hx
    exact ⟨hdispatcher, hbus⟩
  | closeEffect | tick => cases hx; exact ⟨⟨rfl, rfl, rfl, rfl⟩, ⟨rfl, rfl, rfl⟩⟩
  | busDone => exact absurd rfl hb
  | reset c => exact absurd rfl (hm c)
  | accept | endHi | endLo | endHold | exit => cases hd

/-- While the dispatcher rests and the Bus Writer completes nothing, a step but reset leaves dispatcher and bus as they are. -/
theorem same_of_step_of_rests (hr : s.DispatcherRests) (hb : s.nextMove = .busDone → s.busPending = false)
    (hm : ∀ c, s.nextMove ≠ .reset c) (hx : step s = .next t) : s.SameDispatcher t ∧ s.SameBus t := by
  obtain ⟨-, rfl⟩ | ⟨hg, hx⟩ := step_next hx
  · simp [State.SameDispatcher, State.SameBus]
  · have hen : s.enabled s.nextMove = true := by simpa using hg
    have hd : isDispatcherStep s.nextMove = false := by
      refine Bool.eq_false_iff.2 fun hd => ?_
      cases (hr _ hd).symm.trans hen
    have hnb : s.nextMove ≠ .busDone := fun hmove => by
      rw [hmove] at hen
      cases (hb hmove).symm.trans hen
    simpa [State.SameDispatcher, State.SameBus] using same_of_perform hd hnb hm hg hx

/-! ## Where the dispatcher rests -/

/-- The dispatcher waits for its bus write (R152, R215). -/
theorem rests_of_waitsForBus (h : s.waitsForBus = true) : s.DispatcherRests := by
  obtain ⟨hph, hb⟩ : (s.phase = .wrHi ∨ s.phase = .wrLo) ∧ s.busPending = true := by simpa [State.waitsForBus] using h
  intro m hd
  cases m with
  | accept p => simp [State.enabled, State.canAccept, hb]
  | endHi => simp [State.enabled, State.canEndHi, hb]
  | endLo => simp [State.enabled, State.canEndLo, hb]
  | endHold => obtain hph | hph := hph <;> simp [State.enabled, State.canEndHold, hph]
  | exit => obtain hph | hph := hph <;> simp [State.enabled, State.canExit, hph]
  | send | admitReq | closeEffect | busDone | tick | reset => cases hd

/-- Every dispatcher step is guarded by another phase than `EXITED` (R154). -/
theorem rests_of_exited (h : s.phase = .exited) : s.DispatcherRests := by
  intro m hd
  cases m with
  | accept | endHi | endLo | endHold | exit =>
    simp [State.enabled, State.canAccept, State.canEndHi, State.canEndLo, State.canEndHold, State.canExit, h]
  | send | admitReq | closeEffect | busDone | tick | reset => cases hd

/-- While `CFG_ERR` is set no port has a request outstanding (R155). -/
theorem State.Inv.idle_of_cfgErr (h : s.Inv) (hc : s.cfgErr = true) {port : Port} (hp : s.ports[p]? = some port) :
    port.state = .idle := by
  by_contra hbusy
  cases hc.symm.trans (cfgErr_of_busy (h.portsOk p port hp) hbusy)

/-- While `CFG_ERR` is set the dispatcher is idle, and nothing is eligible or closed (R155). -/
theorem rests_of_cfgErr (h : s.Inv) (hc : s.cfgErr = true) : s.DispatcherRests := by
  obtain ⟨-, hopen, hph, -⟩ := h.cfgQuiet hc
  intro m hd
  cases m with
  | accept p =>
    refine Bool.eq_false_iff.2 fun hg => ?_
    obtain ⟨-, -, he⟩ := canAccept_iff.1 hg
    obtain ⟨port, hp, hr, -⟩ := eligible_iff.1 he
    cases (h.idle_of_cfgErr hc hp).symm.trans hr
  | endHi => simp [State.enabled, State.canEndHi, hph]
  | endLo => simp [State.enabled, State.canEndLo, hph]
  | endHold => simp [State.enabled, State.canEndHold, hph]
  | exit => simp [State.enabled, State.canExit, hopen]
  | send | admitReq | closeEffect | busDone | tick | reset => cases hd

/-- Settles O52: no dispatcher step is enabled in `EXITED`, and the invariant has no bus write pending there. -/
theorem exitedIsTerminal : Obligations.ExitedIsTerminal := by
  intro s t h hph hm hx
  have hb : s.busPending = false := h.not_pending (by simp [hph]) (by simp [hph])
  obtain ⟨hdispatcher, hbus⟩ := same_of_step_of_rests (rests_of_exited hph) (fun _ => hb) hm hx
  have ⟨hpending, _⟩ := hbus
  exact ⟨hdispatcher, hbus, hpending.trans hb⟩

/-- Settles O53: `CFG_ERR` stays, so that the invariant after the step says all but that the trace is the same. -/
theorem misconfiguredBlockStaysSilent : Obligations.MisconfiguredBlockStaysSilent := by
  intro s t h hc hm hx
  obtain ⟨-, -, -, hpending⟩ := h.cfgQuiet hc
  obtain ⟨-, -, -, htrace⟩ := same_of_step_of_rests (rests_of_cfgErr h hc) (fun _ => hpending) hm hx
  obtain ⟨-, -, -, hcfg⟩ := (persists_of_step hm hx).config
  have h' : t.Inv := inv_of_step h hx
  have hc' : t.cfgErr = true := hcfg.trans hc
  obtain ⟨-, -, hidle', hpending'⟩ := h'.cfgQuiet hc'
  exact ⟨hc', hidle', hpending', htrace, fun p port => h'.idle_of_cfgErr hc'⟩

/-! ## Outstanding requests -/

/-- Every outstanding request stays outstanding, with its TimedWrites and at its next one. -/
def State.KeepsRequests (s t : State) : Prop :=
  ∀ (p : Nat) (port : Port), s.ports[p]? = some port → port.state ≠ .idle → ∃ port' : Port, t.ports[p]? = some port' ∧
    port'.state = port.state ∧ port'.units = port.units ∧ port'.idx = port.idx

theorem keepsRequests_of_samePorts (h : t.ports = s.ports) : s.KeepsRequests t :=
  fun _ port hp _ => ⟨port, h ▸ hp, rfl, rfl, rfl⟩

theorem keepsRequests_issue (s : State) (p : Nat) (r : Record) : s.KeepsRequests (s.issue p r) := by
  obtain ⟨-, -, -, -, -, ⟨-, hother⟩, hself⟩ := issue_frame (s := s) p r
  intro q port hq _
  by_cases hqp : q = p
  · subst hqp
    exact ⟨_, hself port hq, rfl, rfl, rfl⟩
  · exact ⟨port, (hother q hqp).trans hq, rfl, rfl, rfl⟩

/-- ADMIT writes an idle port (R179). -/
theorem keepsRequests_of_admitReq (hg : s.canAdmit p = true) (hx : s.admitReq p = .next t) : s.KeepsRequests t := by
  obtain ⟨idlePort, -, -, hp, hidle, -⟩ := canAdmit_iff.1 hg
  obtain ⟨-, -, -, -, hother⟩ := writesPortOnly_of_admitReq hg hx
  intro q port hq hbusy
  have hqp : q ≠ p := by
    rintro rfl
    cases hp.symm.trans hq
    exact hbusy hidle
  exact ⟨port, (hother q hqp).trans hq, rfl, rfl, rfl⟩

/-- Where nothing can be accepted, an enabled move is no ACCEPT. -/
theorem ne_accept_of_enabled {m : Move} (ha : ∀ p, s.canAccept p = false) (hg : s.enabled m = true) (p : Nat) :
    m ≠ .accept p := by
  rintro rfl
  cases (ha p).symm.trans hg

/-- Only ACCEPT, CLOSE taking effect and reset move a request on (R142, R176, R234). -/
theorem keepsRequests_of_perform {m : Move} (ha : ∀ p, m ≠ .accept p) (hc : ∀ p, m ≠ .closeEffect p)
    (hm : ∀ c, m ≠ .reset c) (hg : s.enabled m = true) (hx : s.perform m = .next t) : s.KeepsRequests t := by
  cases m with
  | send p r => cases hx; exact keepsRequests_issue s p r
  | admitReq p => exact keepsRequests_of_admitReq hg hx
  | closeEffect p => exact absurd rfl (hc p)
  | accept p => exact absurd rfl (ha p)
  | endHi => obtain ⟨-, rfl⟩ := endHi_next hx; exact keepsRequests_of_samePorts rfl
  | endLo => obtain ⟨-, rfl⟩ := endLo_next hx; exact keepsRequests_of_samePorts rfl
  | endHold | exit | busDone | tick => cases hx; exact keepsRequests_of_samePorts rfl
  | reset c => exact absurd rfl (hm c)

/-- A step but reset where nothing can be accepted: a CLOSE takes effect, or every request stays. -/
theorem closeEffect_or_keepsRequests (ha : ∀ p, s.canAccept p = false) (hm : ∀ c, s.nextMove ≠ .reset c)
    (hx : step s = .next t) :
    (∃ p, s.canClose p = true ∧ t = s.advance.closeEffect p) ∨ s.KeepsRequests t := by
  obtain ⟨-, rfl⟩ | ⟨hg, hx⟩ := step_next hx
  · exact .inr (keepsRequests_of_samePorts s.advance_ports)
  · have hen : s.enabled s.nextMove = true := by simpa using hg
    by_cases hc : ∃ p, s.nextMove = .closeEffect p
    · obtain ⟨p, hp⟩ := hc
      rw [hp] at hen hx
      exact .inl ⟨p, hen, by cases hx; rfl⟩
    · have hkeeps : s.advance.KeepsRequests t :=
        keepsRequests_of_perform (ne_accept_of_enabled ha hen) (not_exists.1 hc) hm hg hx
      unfold State.KeepsRequests at hkeeps
      rw [State.advance_ports] at hkeeps
      exact .inr hkeeps

/-! ## A bus stall -/

/-- A request presented on an idle port is answered, rejected or started (R170, R179). -/
theorem exists_exec_next (i : Instr) {port : Port} (hp : s.ports[s.cur]? = some port) (hidle : port.state = .idle) :
    ∃ t, exec i s = .next t := by
  cases i <;> exact ⟨_, admission_of_idle hp hidle⟩

theorem exists_admitReq_next (hg : s.canAdmit p = true) : ∃ t, s.admitReq p = .next t := by
  obtain ⟨port, r, rest, hp, hidle, hin, -⟩ := canAdmit_iff.1 hg
  have hpresent : (s.present p port rest).ports[p]? = some { port with input := rest } := setPort_getElem?_self hp
  unfold State.admitReq
  simp only [hp, hin]
  split
  · exact exists_exec_next _ hpresent hidle
  · exact ⟨_, admission_of_idle hpresent hidle⟩

/-- END_HI and END_LO on an empty slot are the model's only stops (R45; log 15). -/
theorem exists_step_next (hslot : s.canEndHi = true ∨ s.canEndLo = true → s.slot.valid = true) :
    ∃ t, step s = .next t := by
  by_cases hg : s.enabled s.nextMove = true
  · rw [step_of_move rfl hg]
    cases hmove : s.nextMove with
    | admitReq p =>
      rw [hmove, ← State.advance_enabled] at hg
      exact exists_admitReq_next hg
    | endHi =>
      rw [hmove] at hg
      exact ⟨_, if_pos (by simpa using hslot (.inl hg))⟩
    | endLo =>
      rw [hmove] at hg
      exact ⟨_, if_pos (by simpa using hslot (.inr hg))⟩
    | send | closeEffect | accept | endHold | exit | busDone | tick | reset => exact ⟨_, rfl⟩
  · exact ⟨_, step_of_waiting rfl hg⟩

/-- Settles O40: the dispatcher rests, so dispatcher and bus stay; and under the lock no CLOSE takes effect (R176). -/
theorem busStallHoldsTheDispatcher : Obligations.BusStallHoldsTheDispatcher := by
  intro s h hnb hm
  have hr : s.DispatcherRests := rests_of_waitsForBus h
  obtain ⟨t, hx⟩ : ∃ t, step s = .next t := by
    refine exists_step_next fun hg => ?_
    obtain hhi | hlo := hg
    · cases (hr .endHi rfl).symm.trans hhi
    · cases (hr .endLo rfl).symm.trans hlo
  obtain ⟨hdispatcher, hbus⟩ := same_of_step_of_rests hr (absurd · hnb) hm hx
  refine ⟨t, hx, hdispatcher, hbus, fun hheld => ?_⟩
  obtain ⟨p, hclose, -⟩ | hkeeps := closeEffect_or_keepsRequests (fun p => hr (.accept p) rfl) hm hx
  · obtain ⟨-, -, -, hfree, -⟩ := canClose_iff.1 hclose
    exact absurd hfree hheld
  · exact hkeeps

/-! ## An occupied slot -/

/-- With a TimedWrite in the slot the dispatcher is not idle (R46), so it accepts none (R149). -/
theorem State.Inv.canAccept_of_slotValid (h : s.Inv) (hv : s.slot.valid = true) (p : Nat) : s.canAccept p = false := by
  refine Bool.eq_false_iff.2 fun hg => ?_
  obtain ⟨hidle, -⟩ := canAccept_iff.1 hg
  have hholds : s.phase.holdsWrite = true := h.slotValid.symm.trans hv
  rw [hidle] at hholds
  cases hholds

/-- Only ACCEPT fills the slot, and END_HOLD empties it (R142, R147). -/
theorem slot_of_perform {m : Move} (ha : ∀ p, m ≠ .accept p) (hm : ∀ c, m ≠ .reset c) (hg : s.enabled m = true)
    (hx : s.perform m = .next t) : t.slot = s.slot ∨ m = .endHold ∧ t.slot = { s.slot with valid := false } := by
  cases m with
  | send | admitReq | closeEffect | tick =>
    obtain ⟨⟨hslot, -⟩, -⟩ := same_of_perform rfl (by simp) (by simp) hg hx
    exact .inl hslot
  | accept p => exact absurd rfl (ha p)
  | endHi => obtain ⟨-, rfl⟩ := endHi_next hx; exact .inl rfl
  | endLo => obtain ⟨-, rfl⟩ := endLo_next hx; exact .inl rfl
  | endHold => cases hx; exact .inr ⟨rfl, rfl⟩
  | exit | busDone => cases hx; exact .inl rfl
  | reset c => exact absurd rfl (hm c)

theorem slot_of_step (ha : ∀ p, s.canAccept p = false) (hm : ∀ c, s.nextMove ≠ .reset c) (hx : step s = .next t) :
    t.slot = s.slot ∨ s.nextMove = .endHold ∧ t.slot = { s.slot with valid := false } := by
  obtain ⟨-, rfl⟩ | ⟨hg, hx⟩ := step_next hx
  · exact .inl s.advance_slot
  · have hna := ne_accept_of_enabled ha (by simpa using hg)
    simpa using slot_of_perform hna hm hg hx

/-- CLOSE taking effect leaves no port running (R176). -/
theorem closeEffect_idle {q : Nat} {port : Port} (hp : (s.closeEffect p).ports[q]? = some port) : port.state = .idle := by
  rw [State.closeEffect_ports, closePorts_getElem?, Option.map_eq_some_iff] at hp
  obtain ⟨port₀, -, rfl⟩ := hp
  split <;> simp

/-- Settles O51: nothing can be accepted, and after a CLOSE taking effect nothing runs. -/
theorem occupiedSlotBlocksHandoff : Obligations.OccupiedSlotBlocksHandoff := by
  intro s t h hv hm hx
  have ha := h.canAccept_of_slotValid hv
  refine ⟨slot_of_step ha hm hx, fun p port port' hp hp' hr hr' => ?_⟩
  obtain ⟨q, -, rfl⟩ | hkeeps := closeEffect_or_keepsRequests ha hm hx
  · cases (closeEffect_idle hp').symm.trans hr'
  · obtain ⟨port'', hp'', -, hunits, hidx⟩ := hkeeps p port hp (by simp [hr])
    cases hp''.symm.trans hp'
    exact ⟨hidx, hunits⟩

/-! ## Who uses the bus -/

/-- What a move does to the bus: nothing, a write issued on a free bus, a write completed, or one abandoned by reset (R60, R69,
R213, R234). -/
theorem bus_of_perform {m : Move} (hg : s.enabled m = true) (hx : s.perform m = .next t) :
    s.SameBus t ∨
      (s.busPending = false ∧ ((∃ p, m = .accept p) ∨ m = .endHi) ∧ t.busTrace = s.busTrace) ∨
      (m = .busDone ∧ s.busPending = true ∧ t = s.busDone) ∨
      ((∃ c, m = .reset c) ∧ t.busPending = false ∧ t.busTrace = s.busTrace) := by
  cases m with
  | send | admitReq | closeEffect | tick =>
    obtain ⟨-, hbus⟩ := same_of_perform rfl (by simp) (by simp) hg hx
    exact .inl hbus
  | accept p =>
    cases hx
    obtain ⟨-, hpending, -⟩ := canAccept_iff.1 hg
    obtain ⟨-, -, -, -, -, -, htrace, -⟩ := accept_frame hg
    exact .inr (.inl ⟨hpending, .inl ⟨p, rfl⟩, htrace⟩)
  | endHi =>
    obtain ⟨-, rfl⟩ := endHi_next hx
    obtain ⟨-, hpending⟩ := canEndHi_iff.1 hg
    exact .inr (.inl ⟨hpending, .inr rfl, rfl⟩)
  | endLo => obtain ⟨-, rfl⟩ := endLo_next hx; exact .inl ⟨rfl, rfl, rfl⟩
  | endHold | exit => cases hx; exact .inl ⟨rfl, rfl, rfl⟩
  | busDone => cases hx; exact .inr (.inr (.inl ⟨rfl, hg, rfl⟩))
  | reset c => cases hx; exact .inr (.inr (.inr ⟨⟨c, rfl⟩, rfl, rfl⟩))

/-- Settles O49: the four ways of `bus_of_perform`; a move passed over leaves the bus alone. -/
theorem onlyTheDispatcherWritesTheBus : Obligations.OnlyTheDispatcherWritesTheBus := by
  intro s t hx
  obtain ⟨-, rfl⟩ | ⟨hg, hx⟩ := step_next hx
  · exact ⟨fun hp => .inl ⟨by simpa using hp, s.advance_busData⟩, .inl s.advance_busTrace⟩
  · obtain ⟨hpending, hdata, htrace⟩ | ⟨hfree, hmove, htrace⟩ | ⟨hmove, hpending, rfl⟩ | ⟨-, hfree, htrace⟩ :=
      bus_of_perform hg hx
    · exact ⟨fun hp => .inl ⟨by simpa [hpending] using hp, by simpa using hdata⟩, .inl (by simpa using htrace)⟩
    · exact ⟨fun _ => .inr ⟨by simpa using hfree, hmove⟩, .inl (by simpa using htrace)⟩
    · exact ⟨(nofun), .inr ⟨hmove, by simpa using hpending, by simp⟩⟩
    · exact ⟨fun hp => (nomatch hfree.symm.trans hp), .inl (by simpa using htrace)⟩

end Sys2Proof.Machine
end

section
/-!
PROOF. The six requests and an illegal header at admission, and CLOSE taking effect (spec/43_session_requests.md rules R170 to
R179). `exec_writes` says what `exec` may write, `exec_starts` what a request that needs `INIT_DONE` latches; a record on an idle
port is run or rejected by `step_of_admitReq` with `admitReq_of_legal` or `admitReq_of_illegal`.
-/

namespace Sys2Proof.Machine

variable {s t : State} {p : Nat} {port : Port} {i : Instr}

/-! ## What admission leaves alone -/

/-- `exec` writes the current port and, for INIT alone, `INIT_STARTED`; the port keeps its stream and gets at most one response,
for the request presented (R170, R207). -/
theorem exec_writes (h : exec i s = .next t) :
    ∃ port port' : Port, s.ports[s.cur]? = some port ∧
      (t = s.setPort s.cur port' ∨ i = .init ∧ t = s.setInitStarted.setPort s.cur port') ∧
      port'.input = port.input ∧
      (port'.responses = port.responses ∨ ∃ code, port'.responses = port.responses ++ [(.legal i, code)]) := by
  obtain ⟨port, hp, -, ⟨code, rfl⟩ | ⟨-, -, ⟨rfl, -, rfl⟩ | ⟨-, -, -, rfl⟩ | ⟨rfl, rfl⟩⟩⟩ := exec_next h
  · exact ⟨port, _, hp, .inl rfl, rfl, .inr ⟨code, rfl⟩⟩
  · exact ⟨port, _, hp, .inr ⟨rfl, rfl⟩, rfl, .inl rfl⟩
  · exact ⟨port, _, hp, .inl rfl, rfl, .inl rfl⟩
  · exact ⟨port, _, hp, .inl rfl, rfl, .inl rfl⟩

/-- Settles O29: the two forms of `exec_writes`; configuration, dispatcher, bus and other ports by the frames of `exec`. -/
theorem admissionFrame : Obligations.AdmissionFrame := by
  intro i s t h
  have hconf : s.SameConfig t := (persists_of_exec h).config
  obtain ⟨hdispatcher, hbus, hclosed, hothers⟩ := writesPortOnly_of_exec h
  obtain ⟨port, port', hp, rfl | ⟨hi, rfl⟩, hin, hresp⟩ := exec_writes h
  · exact ⟨hconf, rfl, hclosed, .inl rfl, hdispatcher, hbus, ⟨rfl, rfl, rfl, rfl⟩, hothers, port, port', hp,
      setPort_getElem?_self hp, hin, hresp⟩
  · exact ⟨hconf, rfl, hclosed, .inr ⟨hi, rfl⟩, hdispatcher, hbus, ⟨rfl, rfl, rfl, rfl⟩, hothers, port, port', hp,
      setPort_getElem?_self hp, hin, hresp⟩

/-! ## Completion -/

/-- Writing one port is seen nowhere else. -/
theorem setPort_frame (s : State) (p : Nat) (port : Port) :
    s.SamePortsBut p (s.setPort p port) ∧ s.SameConfig (s.setPort p port) ∧ s.SameFlags (s.setPort p port) ∧
      s.SameDispatcher (s.setPort p port) ∧ s.SameBus (s.setPort p port) ∧ s.SameEnvironment (s.setPort p port) :=
  ⟨samePortsBut_setPort rfl, ⟨rfl, rfl, rfl, rfl⟩, ⟨rfl, rfl, rfl⟩, ⟨rfl, rfl, rfl, rfl⟩, ⟨rfl, rfl, rfl⟩,
    ⟨rfl, rfl, rfl, rfl⟩⟩

/-- A request that needs `INIT_DONE` and meets no cause of rejection latches its expansion, and nothing else changes (R170). -/
theorem exec_starts (hp : s.ports[s.cur]? = some port) (hidle : port.state = .idle) (hcfg : s.cfgErr = false)
    (hopen : s.closed = false) (hdone : s.initDone = true) (hi : i ≠ .init) (hc : i ≠ .close) :
    ∃ t, exec i s = .next t ∧
      t.ports[s.cur]? = some { port with
        state := .run, op := opcode i, units := expand s.pinMap i, idx := 0, req := .legal i } ∧
      s.SamePortsBut s.cur t ∧ s.SameConfig t ∧ s.SameFlags t ∧ s.SameDispatcher t ∧ s.SameBus t ∧
      s.SameEnvironment t := by
  have hx := exec_of_admissible hp hidle hcfg hopen hc (by simpa [hi] using hdone)
  rw [startedBy_of_ne_init s hi] at hx
  exact ⟨_, hx, setPort_getElem?_self hp, setPort_frame ..⟩

/-- Settles O19: INIT meets no cause of rejection, so its handshake is latched. -/
theorem initStartsTheHandshake : Obligations.InitStartsTheHandshake := by
  intro s port hp hidle hcfg hopen hfresh
  have hx := exec_of_admissible (i := .init) hp hidle hcfg hopen nofun hfresh
  rw [startedBy_init] at hx
  obtain ⟨hothers, hconf, ⟨hstarted, hdone, hclosed⟩, hdispatcher, hbus, henv⟩ :=
    setPort_frame s.setInitStarted s.cur { port with
      state := .run, op := opcode .init, units := expand s.pinMap .init, idx := 0, req := .legal .init }
  exact ⟨_, hx, hstarted, hdone, hclosed, setPort_getElem?_self hp, hothers, hconf, hdispatcher, hbus, henv⟩

/-- Settles O20: a byte's expansion is its pair of TimedWrites. -/
theorem byteRequestsStartOnePair : Obligations.ByteRequestsStartOnePair :=
  fun _ _ _ hp hidle hcfg hopen hdone =>
    ⟨exec_starts hp hidle hcfg hopen hdone nofun nofun, exec_starts hp hidle hcfg hopen hdone nofun nofun⟩

/-- Settles O21: a row print's expansion is its row. -/
theorem rowPrintsStartTheirRow : Obligations.RowPrintsStartTheirRow :=
  fun _ _ _ hp hidle hcfg hopen hdone =>
    ⟨exec_starts hp hidle hcfg hopen hdone nofun nofun, exec_starts hp hidle hcfg hopen hdone nofun nofun⟩

/-- Settles O22: past the two block-wide causes CLOSE writes its port alone. -/
theorem closeWaitsForItsEffect : Obligations.CloseWaitsForItsEffect := by
  intro s port hp hidle hcfg hopen
  have hx : exec .close s = .next (s.setPort s.cur { port with
      state := .closeWait, op := opcode .close, req := .legal .close }) :=
    (admission_of_idle hp hidle).trans (by simp [hcfg, hopen])
  exact ⟨_, hx, setPort_getElem?_self hp, setPort_frame ..⟩

/-! ## Where `exec` stops -/

theorem admission_of_absent {r : Request} {act : Port → State} (hp : s.ports[s.cur]? = none) :
    s.admission r act = .refused .noSuchPort := by
  simp [State.admission, hp]

theorem admission_of_busy {r : Request} {act : Port → State} (hp : s.ports[s.cur]? = some port)
    (hbusy : port.state ≠ .idle) : s.admission r act = .refused .portBusy := by
  simp [State.admission, hp, hbusy]

/-- Settles O30: every request is an admission, which asks for an idle port. -/
theorem execStopsOffIdlePorts : Obligations.ExecStopsOffIdlePorts := by
  refine fun i s => ⟨fun hp => ?_, fun port hp hbusy => ?_, fun port hp hidle => exists_exec_next i hp hidle⟩
  · cases i <;> exact admission_of_absent hp
  · cases i <;> exact admission_of_busy hp hbusy

/-! ## Presenting a record -/

/-- ADMIT's guard is an idle port and a whole record (R170, R179, R80). -/
theorem step_of_admitReq {r : Record} {rest : List Record} (hm : s.nextMove = .admitReq p) (hp : s.ports[p]? = some port)
    (hidle : port.state = .idle) (hin : port.input = r :: rest) (hw : r.whole = true) :
    step s = s.advance.admitReq p :=
  step_of_move hm (canAdmit_iff.2 ⟨port, r, rest, hp, hidle, hin, hw⟩)

theorem admitReq_of_legal {r : Record} {rest : List Record} (hp : s.ports[p]? = some port) (hin : port.input = r :: rest)
    (hr : r.request = some i) : s.admitReq p = exec i (s.present p port rest) := by
  simp [State.admitReq, hp, hin, hr]

theorem admitReq_of_illegal {r : Record} {rest : List Record} (hp : s.ports[p]? = some port)
    (hin : port.input = r :: rest) (hr : r.request = none) :
    s.admitReq p = (s.present p port rest).admitIllegal r.header := by
  simp [State.admitReq, hp, hin, hr]

/-- Settles O5: ADMIT's guard holds, and the record decodes. -/
theorem stepRunsTheDecodedRequest : Obligations.StepRunsTheDecodedRequest := by
  intro s p port i r rest hm hp hidle hin hw hr
  have hp' : s.advance.ports[p]? = some port := by simpa using hp
  exact ⟨(step_of_admitReq hm hp hidle hin hw).trans (admitReq_of_legal hp' hin hr), setPort_getElem?_self hp', rfl⟩

/-- An illegal header carries no text, so alone it is a whole record (R177). -/
theorem whole_of_illegal {h : Header} (hr : requestOf h [] = none) : (⟨h, []⟩ : Record).whole = true := by
  have hnil : List.replicate (recordTextLength h) 0#8 = [] :=
    text_eq_nil_of_illegal (r := ⟨h, List.replicate (recordTextLength h) 0#8⟩) (by simp [Record.whole])
      (requestOf_eq_none_iff.2 (requestOf_eq_none_iff.1 hr))
  have hlen : recordTextLength h = 0 := by simpa using hnil
  simp [Record.whole, hlen]

/-- An illegal header on an idle port is rejected, for the first cause in the order of R206. -/
theorem admitIllegal_of_idle (h : Header) (hp : s.ports[s.cur]? = some port) (hidle : port.state = .idle) :
    s.admitIllegal h = .next (s.reject port (.illegal h)
      (if s.cfgErr then .errCfg else if s.closed then .errClosed else .errIllegal)) := by
  refine (admission_of_idle hp hidle).trans ?_
  split_ifs <;> rfl

/-- Settles O27: the record is whole, so ADMIT presents it, and the rejection writes the response alone. -/
theorem illegalHeaderIsRejected : Obligations.IllegalHeaderIsRejected := by
  intro s p port h rest hm hp hidle hin hr
  have hp' : s.advance.ports[p]? = some port := by simpa using hp
  have hpresent : (s.advance.present p port rest).ports[p]? = some { port with input := rest } :=
    setPort_getElem?_self hp'
  have hreject := admitIllegal_of_idle h hpresent hidle
  rw [State.present_cfgErr, State.present_closed, State.advance_cfgErr, State.advance_closed] at hreject
  have hpresented := (step_of_admitReq hm hp hidle hin (whole_of_illegal hr)).trans (admitReq_of_illegal hp' hin hr)
  have hx := hpresented.trans hreject
  generalize (if s.cfgErr then Status.errCfg else if s.closed then .errClosed else .errIllegal) = code at hx ⊢
  have hset : ((s.advance.present p port rest).reject { port with input := rest } (.illegal h) code).ports =
      s.ports.set p { port with input := rest, responses := port.responses ++ [(.illegal h, code)] } := by
    simp [Port.respond]
  exact ⟨_, hx, hset ▸ setPort_getElem?_self hp, samePortsBut_setPort hset, by simp [State.SameConfig],
    by simp [State.SameFlags], by simp [State.SameDispatcher], by simp [State.SameBus], by simp, rfl⟩

/-! ## CLOSE taking effect -/

/-- Settles O38: CLOSE_EFFECT's guard holds; its own port is answered, and every other port cut off. -/
theorem closeTakesEffect : Obligations.CloseTakesEffect := by
  intro s p port hm hp hwait hfree hopen
  have hport (q : Nat) : (s.advance.closeEffect p).ports[q]? =
      (s.ports[q]?).map fun port => if q = p then port.closeDone else port.cutOff := by
    simpa using closePorts_getElem? p q s.ports
  have hself : (s.advance.closeEffect p).ports[p]? = some port.closeDone := by
    rw [hport, hp, Option.map_some, if_pos rfl]
  refine ⟨s.advance.closeEffect p, step_of_move hm (canClose_iff.2 ⟨port, hp, hwait, hfree, hopen⟩), rfl, by simp,
    by simp, by simp, hself, fun q other hq hother => ?_,
    by simp [State.SameConfig], by simp [State.SameDispatcher], by simp [State.SameBus], by simp⟩
  rw [hport, hother, Option.map_some, if_neg hq]
  split_ifs with hidle
  · rw [cutOff_of_idle hidle]
  · rw [cutOff_of_busy hidle]
    rfl

end Sys2Proof.Machine
end

section
/-!
PROOF. The exceptions (spec/60_exceptions.md). The only one is a rejection at admission (R200): `State.rejectionCause` is the
first cause that applies (R206), and each rejection is a case of `exec_of_rejectionCause` (R201 to R207).
Besides it the Bus Writer's completion (R213) and the time source (R212), and that no step from a good state stops.
-/

namespace Sys2Proof.Machine

variable {s t : State} {port : Port} {i : Instr} {code : Status}

/-! ## Causes of rejection -/

/-- The first cause for which the request `i` is rejected at admission, if any applies (R206). -/
def State.rejectionCause (s : State) (i : Instr) : Option Status :=
  if s.cfgErr = true then some .errCfg
  else if s.closed = true then some .errClosed
  else if i = .init ∧ s.initStarted = true then some .errReinit
  else if i ≠ .init ∧ i ≠ .close ∧ s.initDone = false then some .errNotInit
  else none

theorem rejectionCause_of_cfgErr (i : Instr) (hcfg : s.cfgErr = true) : s.rejectionCause i = some .errCfg :=
  if_pos hcfg

theorem rejectionCause_of_closed (i : Instr) (hcfg : s.cfgErr = false) (hclosed : s.closed = true) :
    s.rejectionCause i = some .errClosed := by
  simp [State.rejectionCause, hcfg, hclosed]

theorem rejectionCause_of_started (hcfg : s.cfgErr = false) (hopen : s.closed = false) (hstarted : s.initStarted = true) :
    s.rejectionCause .init = some .errReinit := by
  simp [State.rejectionCause, hcfg, hopen, hstarted]

theorem rejectionCause_of_not_done (hi : i ≠ .init) (hc : i ≠ .close) (hcfg : s.cfgErr = false) (hopen : s.closed = false)
    (hdone : s.initDone = false) : s.rejectionCause i = some .errNotInit := by
  simp [State.rejectionCause, hi, hc, hcfg, hopen, hdone]

/-- No cause applies to a request that `exec_of_admissible` starts, nor to a CLOSE while the session is open. -/
theorem rejectionCause_eq_none_iff : s.rejectionCause i = none ↔
    s.cfgErr = false ∧ s.closed = false ∧ (i = .init → s.initStarted = false) ∧
      (i ≠ .init → i ≠ .close → s.initDone = true) := by
  unfold State.rejectionCause
  split_ifs with hcfg hclosed hreinit hearly
  · simp [hcfg]
  · simp [hclosed]
  · simp [hreinit]
  · simp [hearly]
  · simpa [hcfg, hclosed] using And.intro hreinit hearly

/-- A rejection at admission writes only its response (R207). -/
theorem exec_of_rejectionCause (hp : s.ports[s.cur]? = some port) (hidle : port.state = .idle)
    (hcause : s.rejectionCause i = some code) :
    exec i s = .next (s.setPort s.cur (port.respond (.legal i) code)) := by
  have hadmission {act : Port → State} := admission_of_idle (r := .legal i) (act := act) hp hidle
  unfold State.rejectionCause at hcause
  split_ifs at hcause with hcfg hclosed hreinit hearly <;> cases hcause
  · cases i <;> exact hadmission.trans (by rw [if_pos hcfg, State.reject])
  · cases i <;> exact hadmission.trans (by rw [if_neg hcfg, if_pos hclosed, State.reject])
  · obtain ⟨rfl, hstarted⟩ := hreinit
    exact hadmission.trans (by rw [if_neg hcfg, if_neg hclosed, if_pos hstarted, State.reject])
  · obtain ⟨hi, hc, hdone⟩ := hearly
    cases i with
    | init => exact absurd rfl hi
    | close => exact absurd rfl hc
    | sendCmd | sendData | printRow1 | printRow2 =>
      exact hadmission.trans (by simp [hcfg, hclosed, hdone, State.reject])

/-- A request with no cause of rejection occupies its port and gets no response yet (R170). -/
theorem exec_of_no_rejectionCause (hp : s.ports[s.cur]? = some port) (hidle : port.state = .idle)
    (hcause : s.rejectionCause i = none) :
    ∃ (t : State) (port' : Port), exec i s = .next t ∧ t.ports[s.cur]? = some port' ∧ port'.state ≠ .idle ∧
      port'.req = .legal i ∧ port'.responses = port.responses := by
  obtain ⟨hcfg, hopen, hfresh, hdone⟩ := rejectionCause_eq_none_iff.1 hcause
  by_cases hc : i = .close
  · subst hc
    obtain ⟨t, hx, hport, -⟩ := closeWaitsForItsEffect s port hp hidle hcfg hopen
    exact ⟨t, _, hx, hport, nofun, rfl, rfl⟩
  · have hadmissible : if i = .init then s.initStarted = false else s.initDone = true := by
      split_ifs with hi
      · exact hfresh hi
      · exact hdone hi hc
    exact ⟨_, _, exec_of_admissible hp hidle hcfg hopen hc hadmissible, setPort_getElem?_self (s := s.startedBy i) hp,
      nofun, rfl, rfl⟩

/-- Settles O23: `ERR_CFG` is the first cause for every request. -/
theorem misconfigurationRejectsEveryRequest : Obligations.MisconfigurationRejectsEveryRequest :=
  fun i _ _ hp hidle hcfg => ⟨exec_of_rejectionCause hp hidle (rejectionCause_of_cfgErr i hcfg), rfl⟩

/-- Settles O24: with a good configuration `ERR_CLOSED` is the first cause for every request. -/
theorem closedSessionRejectsEveryRequest : Obligations.ClosedSessionRejectsEveryRequest :=
  fun i _ _ hp hidle hcfg hclosed => ⟨exec_of_rejectionCause hp hidle (rejectionCause_of_closed i hcfg hclosed), rfl⟩

/-- Settles O25: past the two block-wide causes, `ERR_NOT_INIT` is what remains for the four gated requests. -/
theorem requestsBeforeInitAreRejected : Obligations.RequestsBeforeInitAreRejected :=
  fun _ _ _ hi hc hp hidle hcfg hopen hdone =>
    ⟨exec_of_rejectionCause hp hidle (rejectionCause_of_not_done hi hc hcfg hopen hdone), rfl⟩

/-- Settles O26: past the two block-wide causes, `ERR_REINIT` is what remains for INIT. -/
theorem secondInitIsRejected : Obligations.SecondInitIsRejected :=
  fun _ _ hp hidle hcfg hopen hstarted =>
    ⟨exec_of_rejectionCause hp hidle (rejectionCause_of_started hcfg hopen hstarted), rfl⟩

/-- Settles O28: the statement's chain of causes is `State.rejectionCause`. -/
theorem rejectionPriority : Obligations.RejectionPriority :=
  fun _ _ _ hp hidle => ⟨fun _ => exec_of_rejectionCause hp hidle, exec_of_no_rejectionCause hp hidle⟩

/-! ## The bus completes a write, and time passes -/

/-- Settles O36: BUS_DONE's guard is that a bus write is pending. -/
theorem busDoneExtendsTheTrace : Obligations.BusDoneExtendsTheTrace := by
  refine fun s hm => ⟨fun hpending => ?_, fun hfree => step_of_waiting hm fun hg => ?_⟩
  · rw [step_of_move hm hpending]
    simp [State.perform, State.busDone]
  · cases hfree.symm.trans hg

/-- Settles O37: a TICK of at least one microsecond is never held. -/
theorem tickAdvancesTime : Obligations.TickAdvancesTime := by
  intro s n hm hn
  rw [step_of_move hm (decide_eq_true hn)]
  simp [State.perform, State.tick]

theorem step_tick_nowUs {n : Nat} (hm : s.nextMove = .tick n) (hn : 1 ≤ n) (hx : step s = .next t) :
    t.nowUs = s.nowUs + n := by
  cases (tickAdvancesTime s n hm hn).symm.trans hx
  rfl

/-! ## No step stops -/

/-- In the phases of END_HI and END_LO there is a TimedWrite in the slot (R46). -/
theorem State.Inv.slotValid_of_canEnd (h : s.Inv) (hg : s.canEndHi = true ∨ s.canEndLo = true) : s.slot.valid = true := by
  rw [h.slotValid]
  obtain hhi | hlo := hg
  · rw [(canEndHi_iff.1 hhi).1]
    rfl
  · rw [(canEndLo_iff.1 hlo).1]
    rfl

/-- Settles O47: the model's only stops are END_HI and END_LO on an empty slot, which the invariant excludes. -/
theorem goodStatesNeverStop : Obligations.GoodStatesNeverStop :=
  fun _ h => exists_step_next h.slotValid_of_canEnd

/-! ## Time in an endless run -/

section Run

variable {schedule : Nat → Move} {run : Nat → State} (hrun : IsRun schedule run)
include hrun

/-- The time never goes back in a run, resets included (R50; log 11). -/
theorem run_nowUs_mono : Monotone fun n => (run n).nowUs :=
  monotone_nat_of_le_succ fun n => (flagsAndConfigurationPersist _ _ (hrun n)).1

/-- Where TICK is taken infinitely often the time passes every bound (R212). -/
theorem exists_run_nowUs_ge (hfair : TimeFair schedule) (n time : Nat) : ∃ m, n ≤ m ∧ time ≤ (run m).nowUs := by
  induction time with
  | zero => exact ⟨n, Nat.le_refl n, Nat.zero_le _⟩
  | succ time ih =>
    obtain ⟨j, hnj, hj⟩ := ih
    obtain ⟨m, hjm, k, hk, hm⟩ := hfair j
    have hmono : (run j).nowUs ≤ (run m).nowUs := run_nowUs_mono hrun hjm
    have htick : (run (m + 1)).nowUs = (run m).nowUs + k :=
      step_tick_nowUs (s := { run m with agenda := [schedule m] }) hm hk (hrun m)
    exact ⟨m + 1, by omega, by omega⟩

end Run

/-- Settles O56: the time passes every bound, so it passes the hold's end. -/
theorem holdEventuallyExpires : Obligations.HoldEventuallyExpires :=
  fun _ run hrun hfair n => exists_run_nowUs_ge hrun hfair n (run n).holdUntil

end Sys2Proof.Machine
end

section
/-!
PROOF. Reset and the configuration check (spec/70_reset_and_hazards.md). `flagsOk_iff_perm` turns the set equality of R231 into
a permutation, from which the eight positions are distinct; what a reset state's ports are is said once, by
`eq_reset_of_mem_resetWith`, and `getElem?_resetRunning` says what a reset of the running block does to one port.
-/

namespace Sys2Proof.Machine

variable {pm : PinMap} {busAddr : Byte}

/-! ## The configuration check -/

/-- Four positions are `{0, 1, 2, 3}` as a set exactly when they are 0 to 3 in some order (R231). -/
theorem flagsOk_iff_perm : flagsOk pm = true ↔ (flagPositions pm).Perm [0#3, 1#3, 2#3, 3#3] := by
  simp only [flagsOk, Bool.and_eq_true, List.all_eq_true, List.contains_iff_mem]
  constructor
  · rintro ⟨hcover, -⟩
    exact ((List.subperm_of_subset (by decide) hcover).perm_of_length_le (Nat.le_refl 4)).symm
  · exact fun hperm => ⟨fun _ => hperm.mem_iff.2, fun _ => hperm.mem_iff.1⟩

/-- `cfg_ok`, clause by clause (R231). -/
theorem cfgOk_iff : cfgOk pm busAddr = true ↔
    (flagPositions pm).Perm [0#3, 1#3, 2#3, 3#3] ∧ d4Pos pm = 4#3 ∧ d5Pos pm = 5#3 ∧ d6Pos pm = 6#3 ∧ d7Pos pm = 7#3 ∧
      pinMapReserved pm = 0#8 ∧ busAddr ≤ 0x7F#8 := by
  simp only [cfgOk, pinMapOk, Bool.and_eq_true, flagsOk_iff_perm, beq_iff_eq, decide_eq_true_eq, and_assoc]

/-- Under a configuration that passes the check the eight positions are 0 to 7 in some order, so they are distinct (R231). -/
theorem nodup_positions_of_cfgOk (h : cfgOk pm busAddr = true) :
    [rsPos pm, rwPos pm, ePos pm, d4Pos pm, d5Pos pm, d6Pos pm, d7Pos pm, blPos pm].Nodup := by
  obtain ⟨hflags, h4, h5, h6, h7, -⟩ := cfgOk_iff.1 h
  have hperm : ([rsPos pm, rwPos pm, ePos pm] ++ ([4#3, 5#3, 6#3, 7#3] ++ [blPos pm])).Perm
      ([0#3, 1#3, 2#3, 3#3] ++ [4#3, 5#3, 6#3, 7#3]) :=
    (List.perm_append_comm.append_left _).trans (hflags.append_right _)
  rw [h4, h5, h6, h7]
  exact hperm.symm.nodup (by decide)

/-- Settles O43: `cfgOk_iff`, `nodup_positions_of_cfgOk`, and reset's `CFG_ERR` is the check's negation by definition. -/
theorem configurationCheckDecides : Obligations.ConfigurationCheckDecides := by
  intro pm busAddr
  refine ⟨cfgOk_iff, nodup_positions_of_cfgOk, ?_⟩
  rintro nprod c rfl rfl
  rfl

/-! ## Power-on reset -/

/-- Every port of a reset state is a port at reset (R39 to R42). -/
theorem eq_reset_of_mem_resetWith {nprod : Nat} {c : Params} {port : Port} (h : port ∈ (State.resetWith nprod c).ports) :
    port = Port.reset :=
  List.eq_of_mem_replicate h

theorem resetWith_ports_length (nprod : Nat) (c : Params) : (State.resetWith nprod c).ports.length = nprod :=
  List.length_replicate

/-- Every sequencer of a reset state is idle and empty (R39, R41, R42). -/
theorem sequencer_of_mem_resetWith {nprod : Nat} {c : Params} {port : Port}
    (h : port ∈ (State.resetWith nprod c).ports) : port.state = .idle ∧ port.units = [] ∧ port.idx = 0 := by
  obtain rfl := eq_reset_of_mem_resetWith h
  exact ⟨rfl, rfl, rfl⟩

/-- Settles O42: `CFG_ERR` is the check's negation, the ports are `nprod` idle ones, the rest is `State.resetWith` read off. -/
theorem powerOnResetValues : Obligations.PowerOnResetValues := by
  intro nprod c
  have hcfg : (!cfgOk c.pinMap c.busAddr) = false ↔ cfgOk c.pinMap c.busAddr = true := by simp
  exact ⟨rfl, rfl, rfl, hcfg, rfl, rfl, rfl, rfl, rfl, rfl, rfl, rfl, rfl, rfl, resetWith_ports_length nprod c,
    fun _ => sequencer_of_mem_resetWith⟩

/-- An empty bus trace in phase `IDLE` with no write pending is a good one (R230). -/
theorem traceInv_resetWith (nprod : Nat) (c : Params) : (State.resetWith nprod c).TraceInv where
  pulses := rfl
  spaced := rfl
  halfPulse := by simp [State.resetWith]
  halfByte := nofun
  lowPast := nofun
  heldHold := nofun
  heldNow := fun _ => rfl

theorem streamsWhole_resetWith (nprod : Nat) (c : Params) : (State.resetWith nprod c).StreamsWhole := by
  intro p port hp r hr
  obtain rfl := eq_reset_of_mem_resetWith (List.mem_of_getElem? hp)
  cases hr

/-- Settles O45: the block's invariant by `inv_resetWith`; the traces and the streams are empty. -/
theorem invariantsHoldAtReset : Obligations.InvariantsHoldAtReset := by
  intro nprod c hn
  have hne : (State.resetWith nprod c).ports ≠ [] :=
    List.ne_nil_of_length_pos ((resetWith_ports_length nprod c).symm ▸ hn)
  have hinv : (State.resetWith nprod c).Inv :=
    inv_resetWith (nprod := nprod) (c := c) hne fun _ => sequencer_of_mem_resetWith (c := c)
  exact ⟨hinv, traceInv_resetWith nprod c, streamsWhole_resetWith nprod c⟩

/-! ## Reset while running -/

/-- A reset of the running block resets each port in its place (R234). -/
theorem getElem?_resetRunning {s : State} {p : Nat} {port : Port} (c : Params) (hp : s.ports[p]? = some port) :
    (s.resetRunning c).ports[p]? = some port.resetRunning := by
  simp [State.resetRunning, hp]

/-- Settles O41: the step is `State.resetRunning`, which keeps the time and the number of ports by
`resetRunning_time_nprod` and resets each port by `getElem?_resetRunning`. -/
theorem resetWhileRunning : Obligations.ResetWhileRunning := by
  intro s c hm
  obtain ⟨htime, hnprod⟩ := resetRunning_time_nprod s.advance c
  refine ⟨s.advance.resetRunning c, step_reset hm, rfl, rfl, rfl, rfl, rfl, rfl, rfl, rfl, rfl, rfl, rfl, rfl, rfl,
    by simpa using htime, s.advance_busTrace, by simpa using hnprod, fun p port hp => ?_⟩
  exact ⟨port.resetRunning, getElem?_resetRunning c (by simpa using hp), rfl, rfl, rfl, rfl, rfl⟩

end Sys2Proof.Machine
end
